-- ==== Sys2Proof/Word.lean ====
section
/-! DEFINITION. The words of the DSX-8 as the spec counts them (spec/00_scope.md sections 5.2 to 5.5). -/

namespace Sys2Proof

/-- One byte of a request, a response, a link frame or a store block. -/
abbrev Byte := BitVec 8

/-- A line position: a 32-bit count that wraps modulo 2^32 (00_scope 5.2). -/
abbrev Pos := BitVec 32

/-- A stamp: a 48-bit count of 10 ns units that wraps modulo 2^48 (00_scope 5.3). -/
abbrev Stamp := BitVec 48

/-- A 32-bit count that wraps from 4,294,967,295 to 0. -/
abbrev Count := BitVec 32

/-- A set of notice flags or a notice mask: bit i is the i-th notice of section 10.6 (R199). -/
abbrev NoticeSet := BitVec 32

/-- The index of one of the 16,384 store blocks (00_scope 5.1). -/
abbrev Block := BitVec 14

/-- The number of a camera port, of its trigger channel and of its packer, 0 to 7. -/
abbrev Unit8 := Fin 8

/-- The eight port and channel numbers in rising order. -/
def units : List Unit8 := [0, 1, 2, 3, 4, 5, 6, 7]

end Sys2Proof
end

