-- ==== Sys2Proof/Config.lean ====
section
/-! DEFINITION. What the spec leaves to the part: the free values. Nothing here has a body, so no proof can see a value. -/

namespace Sys2Proof

/-- The choice of an order where the spec says that either of several events may be taken first, or that events are
"taken without order among them" (R62, R67, 00_scope 5.8). The k-th choice a run makes is `orderChoice k`; the state's
own counter `orderIndex` supplies k. Log entry 2. -/
opaque Config.orderChoice : Nat → Nat

/-- Whether a time left that is no whole number of microseconds is reported rounded up (true) or down (false) by
READ_EJECT, READ_PORT and READ_LINK. R73, R95 and R166 give the unit and no rounding. Applied to the time left in
stamp units. Log entry 3. -/
opaque Config.roundsUp : Nat → Bool

end Sys2Proof
end

