-- ==== Sys2Proof/Syntax.lean ====
section
/-! DEFINITION. The commands of the DSX-8: one constructor of `Instr` for each row of spec/opcode_table.json. -/

namespace Sys2Proof

/-- The two masters (00_scope section 2), numbered as R199 numbers sources. -/
inductive Master where
  | line
  | office
  deriving DecidableEq, Repr

/-- How a request reaches the part (R188): in one transaction of the local port, which LINE clocks, or in a CONTROL
REQUEST frame of OFFICE, which carries the office's own tag (R193). A transaction runs from a fall of CS_N to its rise
(R190): `fall` is that fall with what is shifted in after it, of a transaction that may end as any other, and `line` is the
rise, with the whole request; where CS_N is high a `line` is fall and rise in one. -/
inductive Via where
  | fall
  | line
  | office (tag : BitVec 16)
  deriving DecidableEq, Repr

/-- The level of a pin, in the order the input settings table of section 2.1 lists the two. -/
inductive Level where
  | high
  | low
  deriving DecidableEq, Repr

/-- The four capture inputs of CAPU (R25). -/
inductive CaptureInput where
  | item
  | aux1
  | aux2
  | stop
  deriving DecidableEq, Repr

/-- The three delimiters of the line code (section 8.3). -/
inductive Delimiter where
  | idle
  | control
  | image
  deriving DecidableEq, Repr

/-- What may hold the part in device reset (R198): the supplies, a low RST pin, or a RESET_DEVICE still running. -/
inductive ResetCause where
  | power
  | rst
  | request
  deriving DecidableEq, Repr

/-- The commands of the block: the 57 requests of R192, the events on its pins, receivers, timers and links, and the
local transaction with an unknown operation byte.

A request carries its way in and its argument bytes as they arrive (R188, R199), so that a short, long or ill-valued
argument list is a command like any other. -/
inductive Instr where
  -- requests, in the order of the command table (R192)
  | nop (via : Via) (args : List Byte)
  | readStatus (via : Via) (args : List Byte)
  | setNoticeMask (via : Via) (args : List Byte)
  | resetDevice (via : Via) (args : List Byte)
  | readPosition (via : Via) (args : List Byte)
  | readPositionConfig (via : Via) (args : List Byte)
  | setPositionConfig (via : Via) (args : List Byte)
  | selectSource (via : Via) (args : List Byte)
  | abortSwitch (via : Via) (args : List Byte)
  | setSpeed (via : Via) (args : List Byte)
  | readInputs (via : Via) (args : List Byte)
  | setInput (via : Via) (args : List Byte)
  | readCapture (via : Via) (args : List Byte)
  | readItem (via : Via) (args : List Byte)
  | listItems (via : Via) (args : List Byte)
  | readItemGeometry (via : Via) (args : List Byte)
  | setItemGeometry (via : Via) (args : List Byte)
  | declareItem (via : Via) (args : List Byte)
  | tagItem (via : Via) (args : List Byte)
  | withdrawItem (via : Via) (args : List Byte)
  | readChannel (via : Via) (args : List Byte)
  | setChannel (via : Via) (args : List Byte)
  | setPulse (via : Via) (args : List Byte)
  | planItem (via : Via) (args : List Byte)
  | runPitch (via : Via) (args : List Byte)
  | shootCount (via : Via) (args : List Byte)
  | runUntil (via : Via) (args : List Byte)
  | haltSoft (via : Via) (args : List Byte)
  | haltHard (via : Via) (args : List Byte)
  | readEject (via : Via) (args : List Byte)
  | setEject (via : Via) (args : List Byte)
  | readPort (via : Via) (args : List Byte)
  | setPort (via : Via) (args : List Byte)
  | enablePort (via : Via) (args : List Byte)
  | disablePort (via : Via) (args : List Byte)
  | resetPort (via : Via) (args : List Byte)
  | readConversion (via : Via) (args : List Byte)
  | setConversion (via : Via) (args : List Byte)
  | setPreview (via : Via) (args : List Byte)
  | readFrame (via : Via) (args : List Byte)
  | readStore (via : Via) (args : List Byte)
  | hold (via : Via) (args : List Byte)
  | release (via : Via) (args : List Byte)
  | discard (via : Via) (args : List Byte)
  | clearStore (via : Via) (args : List Byte)
  | setLowWater (via : Via) (args : List Byte)
  | verdict (via : Via) (args : List Byte)
  | override (via : Via) (args : List Byte)
  | setHoldRejected (via : Via) (args : List Byte)
  | readRetirements (via : Via) (args : List Byte)
  | readLink (via : Via) (args : List Byte)
  | retrainLink (via : Via) (args : List Byte)
  | readForward (via : Via) (args : List Byte)
  | credit (via : Via) (args : List Byte)
  | pull (via : Via) (args : List Byte)
  | cancelPull (via : Via) (args : List Byte)
  | setAutoFull (via : Via) (args : List Byte)
  -- line position events
  | quadEdge (a b : Bool)
  | stepEdge (dirHigh : Bool)
  | generatorCount
  | switchDeadline
  | silenceExpiry
  | speedIntervalEnd
  -- capture events
  | capturePinChange (input : CaptureInput) (level : Level)
  | filterExpiry (input : CaptureInput)
  -- pulse timers
  | ejectPulseEnd
  | triggerPulseEnd (channel : Unit8)
  | strobeDelayEnd (channel : Unit8)
  | strobePulseEnd (channel : Unit8)
  -- camera events
  | lockGained (port : Unit8)
  | lockLost (port : Unit8)
  | fsWord (port : Unit8) (counter : BitVec 16)
  | lnWord (port : Unit8) (samples : List (BitVec 14))
  | feWord (port : Unit8)
  | frameWindowExpiry (port : Unit8)
  -- link events
  | lightGained
  | lightLost
  /-- At an expected boundary: the delimiter found there, or none for a delimiter error. -/
  | receivedDelimiter (found : Option Delimiter)
  | huntDelimiterFound (found : Delimiter)
  | huntSpanExpiry
  /-- The body length byte of the CONTROL header. -/
  | controlHeaderReceived (length : Byte)
  /-- The content bytes of the frame after its delimiter, less the CRC, and the CRC received. -/
  | frameReceived (content : List Byte) (crc : BitVec 32)
  | retrainHoldEnd
  | transmitFrameEnd
  -- device reset
  /-- Power-on; `rstLow` is the level of RST then. -/
  | powerOn (rstLow : Bool)
  | rstAsserted
  /-- One cause of a device reset ends; the reset ends with the last of them. -/
  | resetEnd (cause : ResetCause)
  /-- A local transaction whose operation byte is not in the command table. -/
  | unknownOperation (op : Byte) (args : List Byte)
  deriving DecidableEq, Repr

end Sys2Proof
end

