-- ==== Sys2Proof/Decode.lean ====
section
/-! DEFINITION. The decoder over the rows of the opcode table that give bits: none of its 88 rows gives any, so no word
spells a command (log entry 19). -/

namespace Sys2Proof

/-- The command that a word of `nbits` bits spells by the table's bits: no row gives a bit, so there is none. -/
def decodeTableWord (_nbits _w : Nat) : Option Instr := none

end Sys2Proof
end

