-- ==== Sys2Proof/Machine/State.lean ====
section
/-! DEFINITION. The state of the DSX-8, block by block in the order of the spec's chapters. Every default value below is
the value after a device reset, and `State.reset` is made of them. -/

namespace Sys2Proof.Machine

/-! ## Position Unit (01_line_position.md) -/

/-- The three position sources, in the order R7 lists them. -/
inductive Source where
  | quad
  | step
  | synth
  deriving DecidableEq, Repr

/-- A direction sense (section 1.4). -/
inductive Sense where
  | normal
  | reverse
  deriving DecidableEq, Repr

/-- The six outcomes of a switch, in the order of R12's table. -/
inductive SwitchOutcome where
  | done
  | timedOut
  | cancelled
  | cancelledByStop
  | cancelledByFailover
  | superseded
  deriving DecidableEq, Repr

/-- The cause of a failover (R16). -/
inductive FailCause where
  | silence
  | faultBurst
  deriving DecidableEq, Repr

/-- The position settings of section 1.4. -/
structure PositionSettings where
  qualCount : Nat := 256
  switchLimit : Nat := 1000
  silenceWindow : Nat := 50
  faultLimit : Nat := 4
  quadSense : Sense := .normal
  stepSense : Sense := .normal
  deriving DecidableEq, Repr

/-- A pending switch (section 1.5): its target, its qualification count and its deadline, absent for the start-up switch. -/
structure PendingSwitch where
  target : Source
  count : Nat
  deadline : Option Stamp
  deriving DecidableEq, Repr

/-- The last switch outcome record (R12). -/
structure SwitchRecord where
  target : Source
  outcome : SwitchOutcome
  stamp : Stamp
  deriving DecidableEq, Repr

/-- The last failover record (R16). -/
structure FailoverRecord where
  source : Source
  cause : FailCause
  stamp : Stamp
  speed : Nat
  deriving DecidableEq, Repr

/-- The four values of the running source monitor (section 1.7). -/
structure Monitor where
  lastCount : Stamp
  reference : Int
  score : Nat
  tally : Nat
  deriving DecidableEq, Repr

/-- POSU's state (R19). -/
structure Posu where
  position : Pos := 0
  active : Source := .synth
  /-- The synthetic speed: 0 or 10 to 4,000,000 counts per second (R4). -/
  synthSpeed : Nat := 0
  /-- How far the rate generator is into its interval, in units of 1/100,000,000 of a count: it grows by the synthetic
  speed each stamp unit, and a count is due at 100,000,000 (R4). -/
  genPhase : Nat := 0
  pendingSwitch : Option PendingSwitch := none
  /-- The net movement so far in the running 1 ms interval (R13). -/
  netCounts : Int := 0
  /-- The net counts of the last 8 completed intervals, newest first (R13). -/
  intervals : List Int := [0, 0, 0, 0, 0, 0, 0, 0]
  /-- The stamp at which the running interval ends (R13). -/
  intervalEnd : Stamp := 100000
  measuredSpeed : Int := 0
  /-- The source monitor; absent while it is stopped (R14). -/
  monitor : Option Monitor := none
  lastSwitch : Option SwitchRecord := none
  lastFailover : Option FailoverRecord := none
  settings : PositionSettings := {}
  deriving DecidableEq, Repr

/-! ## Capture Unit (02_edge_capture_and_the_item_table.md, 2.1 to 2.3) -/

/-- The edge selections, in the order of the settings table. -/
inductive EdgeSelection where
  | rise
  | fall
  | both
  | off
  deriving DecidableEq, Repr

/-- The roles of an AUX input. -/
inductive Role where
  | capture
  | untilEdge
  | both
  deriving DecidableEq, Repr

/-- The two AUX inputs, in the order R26 and R57 list them. -/
inductive AuxInput where
  | aux1
  | aux2
  deriving DecidableEq, Repr

/-- The direction of an accepted edge. -/
inductive Edge where
  | rise
  | fall
  deriving DecidableEq, Repr

/-- A pending edge (R23): the new level, the position and stamp of the change, and the stamp at which the filter time
in force at the change has passed. -/
structure PendingEdge where
  level : Level
  position : Pos
  stamp : Stamp
  due : Stamp
  deriving DecidableEq, Repr

/-- One capture input: filtered level, pending edge and the four settings of section 2.1. -/
structure InputUnit where
  filtered : Level := .low
  pendingEdge : Option PendingEdge := none
  edges : EdgeSelection := .off
  filter : Nat := 0
  level : Level := .high
  role : Role := .capture
  deriving DecidableEq, Repr

/-- A record of the aux FIFO (R26). -/
structure CaptureRecord where
  input : AuxInput
  edge : Edge
  position : Pos
  stamp : Stamp
  deriving DecidableEq, Repr

/-- CAPU's state (R30). -/
structure Capu where
  item : InputUnit := {}
  aux1 : InputUnit := {}
  aux2 : InputUnit := {}
  stop : InputUnit := { edges := .both }
  /-- The aux FIFO, oldest first (R27). -/
  fifo : List CaptureRecord := []
  /-- The dropped count, saturating at 65,535 (R27). -/
  dropped : Nat := 0
  deriving DecidableEq, Repr

/-! ## Frame handles (00_scope 5.5) -/

/-- A frame handle: a record slot and a generation. -/
structure Handle where
  slot : Fin 512
  gen : BitVec 7
  deriving DecidableEq, Repr

/-! ## Item Table (02, 2.4 to 2.10, and 07_verdicts_and_ejection.md) -/

/-- How an item was created. -/
inductive Origin where
  | sensor
  | declared
  deriving DecidableEq, Repr

/-- The item states of section 2.4. -/
inductive ItemState where
  | entering
  | tracked
  | complete
  deriving DecidableEq, Repr

/-- The reasons for MISSED, in the order R39 lists them. -/
inductive MissReason where
  | queueFull
  | tooLate
  | cameraLost
  | cameraBusy
  | storeFull
  | halted
  | noFrame
  deriving DecidableEq, Repr

/-- A shot entry: its status, with the handle for FIRED and TAKEN and the reason for MISSED. -/
inductive Shot where
  | none
  | pending
  | fired (h : Handle)
  | taken (h : Handle)
  | missed (r : MissReason)
  deriving DecidableEq, Repr

/-- A verdict of a master (R135, R136). -/
inductive Verdict where
  | pass
  | reject
  deriving DecidableEq, Repr

/-- The source of a final verdict (R139), numbered as R199 numbers sources. -/
inductive VerdictSource where
  | line
  | office
  | default
  deriving DecidableEq, Repr

/-- The item flags of section 2.4. -/
structure ItemFlags where
  long : Bool := false
  missedShot : Bool := false
  conversionFault : Bool := false
  truncatedFrame : Bool := false
  deriving DecidableEq, Repr

/-- An item record (section 2.4). -/
structure Item where
  number : Nat
  origin : Origin
  state : ItemState
  start : Pos
  endPos : Option Pos
  ejectAt : Pos
  tag : Option (BitVec 32) := none
  shots : Vector Shot 8 := Vector.replicate 8 .none
  officeVerdict : Option Verdict := none
  lineOverride : Option Verdict := none
  flags : ItemFlags := {}
  deriving DecidableEq, Repr

/-- BLIND_POLICY, in the order of the geometry table. -/
inductive BlindPolicy where
  | reject
  | ignore
  deriving DecidableEq, Repr

/-- The geometry settings of section 2.10. -/
structure Geometry where
  minGap : Nat := 64
  maxLength : Nat := 4096
  ejectDistance : Nat := 65536
  defaultVerdict : Verdict := .reject
  blindPolicy : BlindPolicy := .reject
  deriving DecidableEq, Repr

/-- The six retirement counts of section 7.1, one for each pair of final verdict and source. -/
structure RetirementCounts where
  passLine : Count := 0
  passOffice : Count := 0
  passDefault : Count := 0
  rejectLine : Count := 0
  rejectOffice : Count := 0
  rejectDefault : Count := 0
  deriving DecidableEq, Repr

/-- The last retirement record (R139). -/
structure RetirementRecord where
  number : Nat
  verdict : Verdict
  source : VerdictSource
  position : Pos
  stamp : Stamp
  deriving DecidableEq, Repr

/-- ITAB's state (R50, R149). -/
structure Itab where
  /-- The live items, oldest first (R31). -/
  items : List Item := []
  nextNumber : Nat := 1
  /-- The assigned count, saturating at 8,388,608 (R32). -/
  assigned : Nat := 0
  /-- The trailing-edge suppression (R36). -/
  suppression : Bool := false
  /-- The blind list, nearest ahead first (R44). -/
  blind : List Pos := []
  refusedEdges : Count := 0
  overflowEdges : Count := 0
  blindLost : Count := 0
  geometry : Geometry := {}
  retired : RetirementCounts := {}
  withdrawn : Count := 0
  blindEjects : Count := 0
  lateVerdicts : Count := 0
  overridden : Count := 0
  lastRetirement : Option RetirementRecord := none
  deriving DecidableEq, Repr

/-! ## Trigger Unit (03_trigger_channels.md) -/

/-- The channel states of R51. -/
inductive ChannelState where
  | idle
  | running
  | halting
  deriving DecidableEq, Repr

/-- The plans of section 3.3. -/
inductive Plan where
  | off
  | item
  | pitch
  | count
  | untilEdge
  deriving DecidableEq, Repr

/-- The action of an UNTIL plan (R57). -/
inductive UntilAction where
  | soft
  | hard
  deriving DecidableEq, Repr

/-- The kinds of shot queue entries (R59). -/
inductive ShotKind where
  | areaShot
  | windowOpen
  | windowClose
  deriving DecidableEq, Repr

/-- A shot queue entry (R59). -/
structure ShotEntry where
  item : Nat
  pos : Pos
  kind : ShotKind
  deriving DecidableEq, Repr

/-- The free-running target (section 3.1). -/
structure FreeRun where
  next : Pos
  last : Option Pos := none
  pitch : Nat
  /-- The remaining count of a COUNT plan. -/
  remaining : Option Nat := none
  /-- The until input and action of an UNTIL plan. -/
  stopOn : Option (AuxInput × UntilAction) := none
  deriving DecidableEq, Repr

/-- Where a window's known close stands: in the shot queue, written in the window record (R60 case 5), or detached (R61). -/
inductive CloseHome where
  | queued
  | held
  | detached
  deriving DecidableEq, Repr

/-- The open window record (R63). -/
structure Window where
  item : Nat
  handle : Handle
  nextLine : Pos
  /-- The outstanding-line flag (R64). -/
  outstanding : Bool := false
  close : Option (Pos × CloseHome) := none
  deriving DecidableEq, Repr

/-- A set of pulse settings (R53). -/
structure PulseSettings where
  width : Nat := 1000
  strobe : Bool := false
  strobeDelay : Nat := 0
  strobeWidth : Nat := 1000
  deriving DecidableEq, Repr

/-- The strobe output: low with no sequence, low with the delay running until a stamp (and then high for a width), or
high until a stamp (R66). -/
inductive Strobe where
  | low
  | delaying (upTo : Stamp) (width : Nat)
  | high (upTo : Stamp)
  deriving DecidableEq, Repr

/-- One trigger channel (the state table of section 3.1, and its two outputs). -/
structure Channel where
  state : ChannelState := .idle
  plan : Plan := .off
  offset : Nat := 0
  scanPitch : Nat := 16
  queue : List ShotEntry := []
  freeRun : Option FreeRun := none
  window : Option Window := none
  active : PulseSettings := {}
  shadow : PulseSettings := {}
  untilMark : Option (Pos × Stamp) := none
  fired : Count := 0
  skipped : Count := 0
  /-- TRIGn: the stamp at which the running pulse ends, absent while the output is low. -/
  trigger : Option Stamp := none
  strobe : Strobe := .low
  deriving DecidableEq, Repr

/-- The eject timer (R72): EJECT is high up to stamp `upTo`, and low while that is absent. -/
structure EjectTimer where
  width : Nat := 20000
  upTo : Option Stamp := none
  count : Count := 0
  deriving DecidableEq, Repr

/-- TRGU's state (R75). -/
structure Trgu where
  channels : Vector Channel 8 := Vector.replicate 8 {}
  eject : EjectTimer := {}
  deriving DecidableEq, Repr

/-! ## Camera Ports (04_camera_ports.md) -/

/-- The kind of a port and of its channel. -/
inductive PortKind where
  | area
  | scan
  deriving DecidableEq, Repr

/-- The port states, in the order of R76's table. -/
inductive PortState where
  | disabled
  | idle
  | armed
  | receiving
  | draining
  | unlocked
  deriving DecidableEq, Repr

/-- The ten counters of R94. -/
structure PortCounters where
  started : Count := 0
  completed : Count := 0
  truncated : Count := 0
  windowExpiries : Count := 0
  unsolicited : Count := 0
  stray : Count := 0
  unrequested : Count := 0
  discarded : Count := 0
  lockLosses : Count := 0
  gaps : Count := 0
  deriving DecidableEq, Repr

/-- One camera port (R76, section 4.1). Its receiver lock flag follows the lock detector at all times (R77) and stands in
`Pins.lock`. -/
structure Port where
  state : PortState := .disabled
  kind : PortKind := .area
  width : Nat := 1024
  lines : Nat := 1024
  depth : Nat := 8
  /-- FRAME_WINDOW in microseconds. -/
  frameWindow : Nat := 10000
  /-- The current frame (R76). -/
  current : Option Handle := none
  /-- The frame window timer: the stamp at which it expires, absent when it does not run (R81). -/
  windowEnd : Option Stamp := none
  lastCounter : Option (BitVec 16) := none
  counters : PortCounters := {}
  deriving DecidableEq, Repr

/-! ## Packers (05_sample_packing_and_previews.md) -/

/-- The output formats of section 5.2. -/
inductive Format where
  | mono8
  | mono10p
  | mono12p
  | mono16
  deriving DecidableEq, Repr

/-- The rounding modes of R102. -/
inductive Rounding where
  | nearestEven
  | towardZero
  | down
  | up
  deriving DecidableEq, Repr

/-- The range modes of R103 and R104. -/
inductive RangeMode where
  | saturate
  | mark
  deriving DecidableEq, Repr

/-- The conversion settings of section 5.2. -/
structure Conversion where
  format : Format := .mono8
  blackOffset : Int := 0
  /-- The whole number k; the gain is k/4,096. -/
  gain : Nat := 4096
  rounding : Rounding := .nearestEven
  rangeMode : RangeMode := .saturate
  faultLimit : Nat := 0
  faultReport : Bool := false
  deriving DecidableEq, Repr

/-- The frame context of a packer (R98). -/
structure FrameContext where
  handle : Handle
  /-- The recorded preview setting: absent for off, or the factor D. -/
  preview : Option Nat
  /-- One pair (sum, valid count) for each preview column (R109). -/
  columns : List (Nat × Nat)
  /-- Camera lines in the accumulator's current row. -/
  rows : Nat
  deriving DecidableEq, Repr

/-- One packer (section 5.1). -/
structure Packer where
  conversion : Conversion := {}
  previewOn : Bool := true
  previewFactor : Nat := 8
  context : Option FrameContext := none
  deriving DecidableEq, Repr

/-! ## Frame Store (06_frame_store_and_catalogue.md) -/

/-- The truncation reasons, in the order of the frame record table. -/
inductive TruncReason where
  | halted
  | cameraLost
  | storeFull
  | long
  deriving DecidableEq, Repr

/-- The record states of section 6.5; a truncated record carries its reason. -/
inductive RecordState where
  | expected
  | filling
  | complete
  | truncated (r : TruncReason)
  deriving DecidableEq, Repr

/-- The frame flags of the frame record table. -/
structure FrameFlags where
  lineLength : Bool := false
  long : Bool := false
  short : Bool := false
  noFe : Bool := false
  conversionFault : Bool := false
  deriving DecidableEq, Repr

/-- The preview state (R124). -/
inductive PreviewState where
  | none
  | queued
  | sending
  | sent
  | skipped
  deriving DecidableEq, Repr

/-- The full state (R124). -/
inductive FullState where
  | none
  | await
  | queued
  | sending
  | sent
  deriving DecidableEq, Repr

/-- The set of holders of a record. -/
structure Holders where
  line : Bool := false
  office : Bool := false
  deriving DecidableEq, Repr

/-- The verdict copy of a record (R125). -/
inductive VerdictCopy where
  | none
  | pass
  | reject
  | withdrawn
  deriving DecidableEq, Repr

/-- A frame record (section 6.1). Its handle is its slot and that slot's generation. -/
structure FrameRecord where
  port : Unit8
  item : Nat
  state : RecordState
  shotPosition : Pos
  fireStamp : Stamp
  endStamp : Option Stamp := none
  cameraCounter : Option (BitVec 16) := none
  format : Format
  /-- The recorded preview setting: absent for off, or the factor D (R99). -/
  preview : Option Nat
  width : Nat
  lines : Nat := 0
  missing : Nat := 0
  bad : Nat := 0
  clippedLow : Nat := 0
  clippedHigh : Nat := 0
  marked : Nat := 0
  flags : FrameFlags := {}
  fullBlocks : List Block := []
  previewBlocks : List Block := []
  /-- The number of preview lines written (R109, R111, R132). -/
  previewLines : Nat := 0
  previewState : PreviewState := .none
  fullState : FullState := .none
  holders : Holders := {}
  copy : VerdictCopy := .none
  copySource : Option VerdictSource := none
  deriving DecidableEq, Repr

/-- A record slot: its current generation and its record, absent while the slot is free (R119). -/
structure Slot where
  gen : BitVec 7 := 0
  record : Option FrameRecord := none
  deriving DecidableEq, Repr

/-- `n` block indices in rising order from `i`. -/
def blocksFrom : Nat → Nat → List Block
  | 0, _ => []
  | n + 1, i => BitVec.ofNat 14 i :: blocksFrom n (i + 1)

/-- FSTO's state (section 6.1), and the contents of the DDR store, one cell for each byte that does not read as 0. -/
structure Fsto where
  /-- The block pool, head first (R115). -/
  pool : List Block := blocksFrom 16384 0
  slots : Vector Slot 512 := Vector.replicate 512 {}
  /-- The age list, oldest first (R126). -/
  age : List Handle := []
  lowWater : Nat := 1024
  evictions : Count := 0
  recordShortages : Count := 0
  blockShortages : Count := 0
  /-- The store's bytes: block times 262,144 plus the place in the block, in canonical form (`memWf`). -/
  mem : List Host.Cell := []
  deriving DecidableEq, Repr

/-! ## Fibre Link (08_the_fibre_link.md) -/

/-- The link states (R150). -/
inductive LinkState where
  | down
  | aligning
  | up
  deriving DecidableEq, Repr

/-- The framer modes (section 8.1). -/
inductive FramerMode where
  | hunting
  | framed
  deriving DecidableEq, Repr

/-- The frame being received: an idle frame, a CONTROL frame whose header has not come, or one with its body length. -/
inductive Reception where
  | idle
  | header
  | control (length : Nat)
  deriving DecidableEq, Repr

/-- The causes of a leaving of UP (section 8.1). -/
inductive DownCause where
  | delimiterErrors
  | lossOfLight
  | retrain
  deriving DecidableEq, Repr

/-- The far state (R158): the sender's state byte, its epoch and its echo. -/
structure FarState where
  state : Byte
  epoch : Byte
  echo : Option Byte
  deriving DecidableEq, Repr

/-- The kinds of a CONTROL frame (R200). -/
inductive ControlKind where
  | request
  | response
  | message
  deriving DecidableEq, Repr

/-- A CONTROL frame of the part (R200). -/
structure ControlFrame where
  kind : ControlKind
  more : Bool := false
  tag : BitVec 16
  op : Byte
  body : List Byte
  deriving DecidableEq, Repr

/-- The two parts of a frame record that a transfer may send. -/
inductive Part where
  | full
  | preview
  deriving DecidableEq, Repr

/-- An IMAGE frame (R176, R200). -/
structure Segment where
  handle : Handle
  part : Part
  last : Bool
  abandoned : Bool
  number : Nat
  payload : List Byte
  deriving DecidableEq, Repr

/-- What the transmitter sends: nothing (device reset), break fill, an idle frame with the state, epoch and echo it
started with, a CONTROL frame (`retrain` marks the response that answers RETRAIN_LINK), or a segment (R152). -/
inductive Transmission where
  | silent
  | breakFill
  | idle (state : LinkState) (epoch : Byte) (echo : Option Byte)
  | control (frame : ControlFrame) (retrain : Bool)
  | image (segment : Segment)
  deriving DecidableEq, Repr

/-- The last down record (R162). -/
structure DownRecord where
  cause : DownCause
  stamp : Stamp
  deriving DecidableEq, Repr

/-- The eleven counters of R166. -/
structure LinkCounters where
  delimiterErrors : Count := 0
  crcErrors : Count := 0
  badLength : Count := 0
  wrongKind : Count := 0
  early : Count := 0
  accepted : Count := 0
  controlSent : Count := 0
  imageSent : Count := 0
  cut : Count := 0
  ups : Count := 0
  downs : Count := 0
  deriving DecidableEq, Repr

/-- A frame as it has gone out on the fibre (R200): its delimiter, and its content bytes with the CRC after them. -/
structure SentFrame where
  delimiter : Delimiter
  bytes : List Byte
  deriving DecidableEq, Repr

/-- LNK's state (section 8.1). The light flag follows the LOS monitor in every link state (R151) and stands in `Pins.light`. -/
structure Lnk where
  state : LinkState := .down
  /-- The retrain hold: its end stamp. -/
  hold : Option Stamp := none
  retrainPending : Bool := false
  epoch : Byte := 0
  framer : FramerMode := .hunting
  /-- The frame in reception, absent between frames. -/
  reception : Option Reception := none
  alignCount : Nat := 0
  errorRun : Nat := 0
  far : Option FarState := none
  farAligned : Bool := false
  idleDue : Nat := 0
  lastDown : Option DownRecord := none
  counters : LinkCounters := {}
  tx : Transmission := .silent
  /-- How many byte positions the transmitter has sent since the frame going out began: 12 each stamp unit (section 8.3). -/
  txSent : Nat := 0
  /-- The last frame whose last byte has gone out, as its bytes; absent before the first. -/
  sent : Option SentFrame := none
  deriving DecidableEq, Repr

/-! ## Forwarder (09_forwarding.md) -/

/-- An entry of the control queue (R168): one frame, or the frames of a run still to hand over; `retrain` marks the
response that answers RETRAIN_LINK (R165). -/
structure ControlEntry where
  frames : List ControlFrame
  retrain : Bool := false
  deriving DecidableEq, Repr

/-- An entry of an image queue (R172). -/
structure ImageEntry where
  handle : Handle
  restart : Bool := false
  deriving DecidableEq, Repr

/-- A transfer in flight (section 9.1). `abandoning` is used by the FULL lane alone; `closed` says that the closing
segment of R180 has been handed over. -/
structure Transfer where
  handle : Handle
  segments : Nat
  next : Nat := 0
  restart : Bool := false
  abandoning : Bool := false
  closed : Bool := false
  deriving DecidableEq, Repr

/-- The auto-full policies (R181). -/
inductive AutoFull where
  | none
  | all
  | onReject
  deriving DecidableEq, Repr

/-- The counters of R186. -/
structure ForwardCounters where
  fullSegments : Count := 0
  previewSegments : Count := 0
  fullTransfers : Count := 0
  previewTransfers : Count := 0
  restarted : Count := 0
  abandoned : Count := 0
  messagesDropped : Count := 0
  commandsDropped : Count := 0
  autoFullSkipped : Count := 0
  creditDiscarded : Count := 0
  deriving DecidableEq, Repr

/-- FWD's state (section 9.1). -/
structure Fwd where
  /-- The control queue, oldest first. -/
  control : List ControlEntry := []
  /-- Whether a place is reserved for a response (R170). -/
  reserved : Bool := false
  pull : List ImageEntry := []
  preview : List ImageEntry := []
  credit : Nat := 0
  fullLane : Option Transfer := none
  previewLane : Option Transfer := none
  fullRun : Nat := 0
  autoFull : Vector AutoFull 8 := Vector.replicate 8 .none
  holdRejected : Bool := false
  counters : ForwardCounters := {}
  deriving DecidableEq, Repr

/-! ## Request and Notice Unit (10_requests_responses_and_notices.md) -/

/-- RNU's state (section 10.1), and the bytes the last transaction shifted out on MISO. -/
structure Rnu where
  /-- The response buffer: the bytes of one response, or none at all when empty. -/
  response : List Byte := []
  /-- What the last local transaction shifted out (R190, R191). -/
  shifted : List Byte := []
  /-- The bytes shifted in so far by a transaction in progress; absent between transactions, and for one that a device
  reset has abandoned (R198). -/
  transaction : Option (List Byte) := none
  lineView : NoticeSet := 0
  officeView : NoticeSet := 0
  lineMask : NoticeSet := 0
  officeMask : NoticeSet := 0
  deriving DecidableEq, Repr

/-! ## The part as a whole -/

/-- The levels that stand on the part's inputs: straps, encoder and capture pins, lock detectors, LOS monitor and CS_N. They
are the world's, so a device reset leaves them as they are and its end samples them (R198). -/
structure Pins where
  psel1 : Bool := false
  psel0 : Bool := false
  encA : Bool := false
  encB : Bool := false
  item : Level := .low
  aux1 : Level := .low
  aux2 : Level := .low
  stop : Level := .low
  /-- The lock detectors, which the receiver lock flags follow at all times (R77). -/
  lock : Vector Bool 8 := Vector.replicate 8 false
  /-- The LOS monitor, which the light flag follows in every link state (R151). -/
  light : Bool := false
  /-- CS_N is low: a local transaction is under way (R190). -/
  csLow : Bool := false
  deriving DecidableEq, Repr

/-- What holds the part in device reset (R198); the part is out of reset when all three are absent. -/
structure ResetHold where
  power : Bool := false
  rst : Bool := false
  /-- Stamp units left of the 10 µs reset of RESET_DEVICE. -/
  request : Option Nat := none
  deriving DecidableEq, Repr

/-- Why a command stops the machine. There is no such reason: the spec gives every command an effect in every state, so
no meaning raises a fault (safe). -/
inductive Fault where
  deriving DecidableEq, Repr

/-- Why a command has no meaning. -/
inductive Refusal where
  /-- Raised by `exec` for a command not modelled yet; safe. No arm of this model raises it. -/
  | notModelled (mnemonic : String)
  deriving DecidableEq, Repr

/-- The DSX-8: the commands waiting, and the state of its ten blocks. -/
structure State where
  /-- The commands and events that come next, first in, first out. -/
  pending : List Instr := []
  /-- The stamp clock (00_scope 5.3). -/
  stamp : Stamp := 0
  hold : ResetHold := {}
  /-- The model's own: how many free orders have been chosen so far (`Config.orderChoice`). -/
  orderIndex : Nat := 0
  pins : Pins := {}
  posu : Posu := {}
  capu : Capu := {}
  itab : Itab := {}
  trgu : Trgu := {}
  ports : Vector Port 8 := Vector.replicate 8 {}
  packers : Vector Packer 8 := Vector.replicate 8 {}
  fsto : Fsto := {}
  lnk : Lnk := {}
  fwd : Fwd := {}
  rnu : Rnu := {}
  deriving DecidableEq, Repr

/-- The machine right after a device reset with straps PSEL1 = PSEL0 = 0, every input pin low, no camera locked and no
light on the fibre (log entry 4): every block at its reset values, and the transmitter at its first idle frame (R167). -/
def State.reset : State := { lnk := { tx := .idle .down 0 none } }

end Sys2Proof.Machine
end

