-- ==== Sys2Proof/Machine/Operands.lean ====
section
/-! DEFINITION. Positions and stamps compared as the spec compares them, the bytes of every field (R199), the numbers of
every enumerated value (R199), and the reading of argument bytes. -/

namespace Sys2Proof.Machine

/-! ## Positions (00_scope 5.2) -/

/-- Position `a` is at least `d` ahead of position `b`. -/
def aheadBy (d : Nat) (a b : Pos) : Bool := decide (d ≤ (a - b).toNat) && decide ((a - b).toNat < 2 ^ 31)

/-- Position `a` is behind position `b`. -/
def behind (a b : Pos) : Bool := decide (1 ≤ (b - a).toNat) && decide ((b - a).toNat < 2 ^ 31)

/-- The position `n` counts ahead of `p`. -/
def posPlus (p : Pos) (n : Nat) : Pos := p + BitVec.ofNat 32 n

/-- Target `t` is not at least 1 ahead of the present position (R41, R60, R138). -/
def passed (t now : Pos) : Bool := !aheadBy 1 t now

/-! ## Stamps and timers (00_scope 5.3) -/

/-- The stamp `n` units after `t`. -/
def stampPlus (t : Stamp) (n : Nat) : Stamp := t + BitVec.ofNat 48 n

/-- The timer that ends at `t` has run out at `now`. Every timer of the part is far shorter than half the clock's range,
so a stamp within half the range behind `now` is one that has passed (log entry 5). -/
def timeUp (now t : Stamp) : Bool := decide ((now - t).toNat < 2 ^ 47)

/-- The same of a timer that may not run. -/
def timerDue (now : Stamp) : Option Stamp → Bool
  | none => false
  | some t => timeUp now t

/-- Stamp units in a microsecond and in a millisecond. -/
def perMicro : Nat := 100

/-- See `perMicro`. -/
def perMilli : Nat := 100000

/-- The microseconds left before `t`, 0 once it has come: exact for a whole number of them, and otherwise rounded as the
part rounds, which the spec does not say (`Config.roundsUp`, log entry 3). -/
def microsLeft (now t : Stamp) : Nat :=
  let left := (t - now).toNat
  if timeUp now t then 0
  else if left % perMicro = 0 then left / perMicro
  else left / perMicro + (if Config.roundsUp left then 1 else 0)

/-! ## Fields of the wire (R199) -/

/-- `n` bytes of the number `v`, most significant first. -/
def be : Nat → Nat → List Byte
  | 0, _ => []
  | n + 1, v => BitVec.ofNat 8 (v / 256 ^ n) :: be n v

/-- `n` bytes of the signed number `v`, in two's complement, most significant first. -/
def beInt (n : Nat) (v : Int) : List Byte := be n (v % (256 ^ n : Nat)).toNat

/-- An optional field of `n` bytes: a presence byte, then its bytes, which are 0 when it is absent. -/
def optBytes (n : Nat) : Option (List Byte) → List Byte
  | none => 0 :: List.replicate n 0
  | some bs => 1 :: bs

/-- A yes/no, on/off or set/clear field. -/
def boolByte (b : Bool) : Byte := if b then 1 else 0

/-- The number that bytes carry, most significant first. -/
def beNat (bs : List Byte) : Nat := bs.foldl (fun a b => a * 256 + b.toNat) 0

/-- The argument of `n` bytes at offset `off`. -/
def argNat (args : List Byte) (off n : Nat) : Nat := beNat ((args.drop off).take n)

/-- A signed argument of 2 bytes at offset `off`. -/
def argInt2 (args : List Byte) (off : Nat) : Int :=
  let v := argNat args off 2
  if v < 32768 then v else (v : Int) - 65536

/-- An argument that is 0 or 1; any other value is outside its values. -/
def boolOf : Nat → Option Bool
  | 0 => some false
  | 1 => some true
  | _ => none

/-- A port or channel argument. -/
def unitOf (v : Nat) : Option Unit8 := if h : v < 8 then some ⟨v, h⟩ else none

/-- The port or channel that a 1-byte argument at offset 0 names. -/
def argUnit (args : List Byte) : Option Unit8 := unitOf (argNat args 0 1)

/-- A frame handle on the wire: slot in the high 9 bits, generation in the low 7. -/
def handleBytes (h : Handle) : List Byte := be 2 (h.slot.val * 128 + h.gen.toNat)

/-- The frame handle of a 2-byte argument. -/
def handleOf (v : Nat) : Handle :=
  { slot := ⟨v / 128 % 512, Nat.mod_lt _ (by decide)⟩, gen := BitVec.ofNat 7 v }

/-- The frame handle at offset 0. -/
def argHandle (args : List Byte) : Handle := handleOf (argNat args 0 2)

/-- A position, a stamp, an item number and a 32-bit count on the wire. -/
def posBytes (p : Pos) : List Byte := be 4 p.toNat

/-- See `posBytes`. -/
def stampBytes (t : Stamp) : List Byte := be 6 t.toNat

/-- See `posBytes`. -/
def itemBytes (n : Nat) : List Byte := be 3 n

/-- See `posBytes`. -/
def countBytes (c : Count) : List Byte := be 4 c.toNat

/-- See `posBytes`. -/
def noticeBytes (v : NoticeSet) : List Byte := be 4 v.toNat

/-! ## Enumerated values, numbered from 0 in the order their rules list them (R199) -/

def Source.code : Source → Byte
  | .quad => 0
  | .step => 1
  | .synth => 2

def sourceOf : Nat → Option Source
  | 0 => some .quad
  | 1 => some .step
  | 2 => some .synth
  | _ => none

def Sense.code : Sense → Byte
  | .normal => 0
  | .reverse => 1

def senseOf : Nat → Option Sense
  | 0 => some .normal
  | 1 => some .reverse
  | _ => none

def SwitchOutcome.code : SwitchOutcome → Byte
  | .done => 0
  | .timedOut => 1
  | .cancelled => 2
  | .cancelledByStop => 3
  | .cancelledByFailover => 4
  | .superseded => 5

def FailCause.code : FailCause → Byte
  | .silence => 0
  | .faultBurst => 1

def levelCode : Level → Byte
  | .high => 0
  | .low => 1

def levelOf : Nat → Option Level
  | 0 => some .high
  | 1 => some .low
  | _ => none

/-- The level of an output that is high exactly when `b` holds. -/
def pinLevel (b : Bool) : Level := if b then .high else .low

def inputOf : Nat → Option CaptureInput
  | 0 => some .item
  | 1 => some .aux1
  | 2 => some .aux2
  | 3 => some .stop
  | _ => none

def EdgeSelection.code : EdgeSelection → Byte
  | .rise => 0
  | .fall => 1
  | .both => 2
  | .off => 3

def edgesOf : Nat → Option EdgeSelection
  | 0 => some .rise
  | 1 => some .fall
  | 2 => some .both
  | 3 => some .off
  | _ => none

def Role.code : Role → Byte
  | .capture => 0
  | .untilEdge => 1
  | .both => 2

def roleOf : Nat → Option Role
  | 0 => some .capture
  | 1 => some .untilEdge
  | 2 => some .both
  | _ => none

def AuxInput.code : AuxInput → Byte
  | .aux1 => 0
  | .aux2 => 1

def auxOf : Nat → Option AuxInput
  | 0 => some .aux1
  | 1 => some .aux2
  | _ => none

def Edge.code : Edge → Byte
  | .rise => 0
  | .fall => 1

def Origin.code : Origin → Byte
  | .sensor => 0
  | .declared => 1

def ItemState.code : ItemState → Byte
  | .entering => 0
  | .tracked => 1
  | .complete => 2

def MissReason.code : MissReason → Byte
  | .queueFull => 0
  | .tooLate => 1
  | .cameraLost => 2
  | .cameraBusy => 3
  | .storeFull => 4
  | .halted => 5
  | .noFrame => 6

def Shot.code : Shot → Byte
  | .none => 0
  | .pending => 1
  | .fired _ => 2
  | .taken _ => 3
  | .missed _ => 4

/-- The MISSED reason of a shot entry, present for MISSED. -/
def Shot.reason : Shot → Option MissReason
  | .missed r => some r
  | _ => Option.none

/-- The frame handle of a shot entry, present for FIRED and TAKEN. -/
def Shot.handle : Shot → Option Handle
  | .fired h => some h
  | .taken h => some h
  | _ => Option.none

/-- Verdicts are numbered across the whole manual: NONE 0, PASS 1, REJECT 2, WITHDRAWN 3. -/
def Verdict.code : Verdict → Byte
  | .pass => 1
  | .reject => 2

def verdictOf : Nat → Option Verdict
  | 1 => some .pass
  | 2 => some .reject
  | _ => none

def VerdictCopy.code : VerdictCopy → Byte
  | .none => 0
  | .pass => 1
  | .reject => 2
  | .withdrawn => 3

/-- The verdict copy that a final verdict is written as. -/
def Verdict.copy : Verdict → VerdictCopy
  | .pass => .pass
  | .reject => .reject

def VerdictSource.code : VerdictSource → Byte
  | .line => 0
  | .office => 1
  | .default => 2

def BlindPolicy.code : BlindPolicy → Byte
  | .reject => 0
  | .ignore => 1

def blindPolicyOf : Nat → Option BlindPolicy
  | 0 => some .reject
  | 1 => some .ignore
  | _ => none

def ChannelState.code : ChannelState → Byte
  | .idle => 0
  | .running => 1
  | .halting => 2

def Plan.code : Plan → Byte
  | .off => 0
  | .item => 1
  | .pitch => 2
  | .count => 3
  | .untilEdge => 4

def UntilAction.code : UntilAction → Byte
  | .soft => 0
  | .hard => 1

def actionOf : Nat → Option UntilAction
  | 0 => some .soft
  | 1 => some .hard
  | _ => none

def ShotKind.code : ShotKind → Byte
  | .areaShot => 0
  | .windowOpen => 1
  | .windowClose => 2

def PortKind.code : PortKind → Byte
  | .area => 0
  | .scan => 1

def portKindOf : Nat → Option PortKind
  | 0 => some .area
  | 1 => some .scan
  | _ => none

def PortState.code : PortState → Byte
  | .disabled => 0
  | .idle => 1
  | .armed => 2
  | .receiving => 3
  | .draining => 4
  | .unlocked => 5

def Format.code : Format → Byte
  | .mono8 => 0
  | .mono10p => 1
  | .mono12p => 2
  | .mono16 => 3

def formatOf : Nat → Option Format
  | 0 => some .mono8
  | 1 => some .mono10p
  | 2 => some .mono12p
  | 3 => some .mono16
  | _ => none

def Rounding.code : Rounding → Byte
  | .nearestEven => 0
  | .towardZero => 1
  | .down => 2
  | .up => 3

def roundingOf : Nat → Option Rounding
  | 0 => some .nearestEven
  | 1 => some .towardZero
  | 2 => some .down
  | 3 => some .up
  | _ => none

def RangeMode.code : RangeMode → Byte
  | .saturate => 0
  | .mark => 1

def rangeModeOf : Nat → Option RangeMode
  | 0 => some .saturate
  | 1 => some .mark
  | _ => none

def TruncReason.code : TruncReason → Byte
  | .halted => 0
  | .cameraLost => 1
  | .storeFull => 2
  | .long => 3

def RecordState.code : RecordState → Byte
  | .expected => 0
  | .filling => 1
  | .complete => 2
  | .truncated _ => 3

/-- The truncation reason, present for TRUNCATED. -/
def RecordState.reason : RecordState → Option TruncReason
  | .truncated r => some r
  | _ => none

def PreviewState.code : PreviewState → Byte
  | .none => 0
  | .queued => 1
  | .sending => 2
  | .sent => 3
  | .skipped => 4

def FullState.code : FullState → Byte
  | .none => 0
  | .await => 1
  | .queued => 2
  | .sending => 3
  | .sent => 4

def LinkState.code : LinkState → Byte
  | .down => 0
  | .aligning => 1
  | .up => 2

def FramerMode.code : FramerMode → Byte
  | .hunting => 0
  | .framed => 1

def DownCause.code : DownCause → Byte
  | .delimiterErrors => 0
  | .lossOfLight => 1
  | .retrain => 2

def ControlKind.code : ControlKind → Byte
  | .request => 0
  | .response => 1
  | .message => 2

def Part.code : Part → Byte
  | .full => 0
  | .preview => 1

def AutoFull.code : AutoFull → Byte
  | .none => 0
  | .all => 1
  | .onReject => 2

def autoFullOf : Nat → Option AutoFull
  | 0 => some .none
  | 1 => some .all
  | 2 => some .onReject
  | _ => none

/-- The preview setting on the wire: 0 for off, otherwise D. -/
def previewByte : Option Nat → Byte
  | none => 0
  | some d => BitVec.ofNat 8 d

end Sys2Proof.Machine
end

