-- ==== Sys2Proof/Machine/Flags.lean ====
section
/-! DEFINITION. The part's flags: notices and views (R194 to R196), item and frame flags, and the result codes. -/

namespace Sys2Proof.Machine

/-- The notices, in the order of the table of section 10.6. -/
inductive Notice where
  | sourceFail
  | switchDone
  | switchFailed
  | stop
  | captureOverflow
  | itemOverflow
  | blindLost
  | missedShot
  | cameraLost
  | conversionFault
  | storePressure
  | storeFull
  | storeCleared
  | defaultApplied
  | linkUp
  | linkDown
  | messageLost
  | commandDropped
  | autoFullSkipped
  deriving DecidableEq, Repr

/-- The bit of a notice in a view and in a mask (R199): SOURCE_FAIL 0 to AUTO_FULL_SKIPPED 18. -/
def Notice.index : Notice → Nat
  | .sourceFail => 0
  | .switchDone => 1
  | .switchFailed => 2
  | .stop => 3
  | .captureOverflow => 4
  | .itemOverflow => 5
  | .blindLost => 6
  | .missedShot => 7
  | .cameraLost => 8
  | .conversionFault => 9
  | .storePressure => 10
  | .storeFull => 11
  | .storeCleared => 12
  | .defaultApplied => 13
  | .linkUp => 14
  | .linkDown => 15
  | .messageLost => 16
  | .commandDropped => 17
  | .autoFullSkipped => 18

/-- A notice as a set of one flag. -/
def Notice.bit (n : Notice) : NoticeSet := BitVec.ofNat 32 (2 ^ n.index)

/-- The 14 flags of the LINE view: notices 0 to 11, 14 and 15 of section 10.6. -/
def lineFlags : NoticeSet := 0x0000CFFF

/-- The 14 flags of the OFFICE view: notices 0, 3, 5 to 13 and 16 to 18 of section 10.6. -/
def officeFlags : NoticeSet := 0x00073FE9

/-- A view holds a flag that its mask does not name (R195). -/
def unmasked (view mask : NoticeSet) : Bool := view &&& ~~~mask != 0

/-- ATTN is asserted, driven low, while the LINE view holds an unmasked flag (R196). -/
def attn (r : Rnu) : Bool := unmasked r.lineView r.lineMask

/-- The notice test of the OFFICE view (R197). -/
def officeCalls (r : Rnu) : Bool := unmasked r.officeView r.officeMask

/-- The byte of a set: bit i for the i-th member (R199). -/
def setByte (bs : List Bool) : Byte :=
  BitVec.ofNat 8 (bs.foldr (fun b n => 2 * n + (if b then 1 else 0)) 0)

/-- The item flags as a set. -/
def ItemFlags.byte (f : ItemFlags) : Byte := setByte [f.long, f.missedShot, f.conversionFault, f.truncatedFrame]

/-- The frame flags as a set. -/
def FrameFlags.byte (f : FrameFlags) : Byte := setByte [f.lineLength, f.long, f.short, f.noFe, f.conversionFault]

/-- The holders as a set: LINE bit 0, OFFICE bit 1. -/
def Holders.byte (h : Holders) : Byte := setByte [h.line, h.office]

/-- Whether a master is among the holders. -/
def Holders.has (h : Holders) : Master → Bool
  | .line => h.line
  | .office => h.office

/-- The holders with a master added or removed. -/
def Holders.put (h : Holders) (m : Master) (b : Bool) : Holders :=
  match m with
  | .line => { h with line := b }
  | .office => { h with office := b }

/-- The other master. -/
def otherMaster : Master → Master
  | .line => .office
  | .office => .line

/-- The result codes of section 10.2. -/
inductive Result where
  | ok
  | busy
  | badArg
  | badLength
  | notPermitted
  | unknownOperation
  | unknownItem
  | gone
  | unknownFrame
  | held
  | notHeld
  | queueFull
  | tableFull
  | already
  | redundant
  | overridden
  | tooLate
  | outOfOrder
  | clamped
  | empty
  deriving DecidableEq, Repr

/-- The value of a result code. -/
def Result.code : Result → Byte
  | .ok => 0x01
  | .busy => 0x02
  | .badArg => 0x03
  | .badLength => 0x04
  | .notPermitted => 0x05
  | .unknownOperation => 0x06
  | .unknownItem => 0x07
  | .gone => 0x08
  | .unknownFrame => 0x09
  | .held => 0x0A
  | .notHeld => 0x0B
  | .queueFull => 0x0C
  | .tableFull => 0x0D
  | .already => 0x0E
  | .redundant => 0x0F
  | .overridden => 0x10
  | .tooLate => 0x11
  | .outOfOrder => 0x12
  | .clamped => 0x13
  | .empty => 0x14

end Sys2Proof.Machine
end

