-- ==== Sys2Proof/Machine/Convert.lean ====
section
/-! DEFINITION. The packer's arithmetic: line assembly (R86), the conversion of samples (R101, R102), range handling
(R103, R104), the preview average (R110), and the packing of samples into bytes (R200). -/

namespace Sys2Proof.Machine

/-- Output bits o of a format (section 5.2). -/
def Format.bits : Format → Nat
  | .mono8 => 8
  | .mono10p => 10
  | .mono12p => 12
  | .mono16 => 16

/-- max_out of a format. -/
def Format.maxOut (f : Format) : Nat := 2 ^ f.bits - 1

/-- Bytes per line of width `w` (section 5.2). -/
def Format.lineBytes (f : Format) (w : Nat) : Nat :=
  match f with
  | .mono8 => w
  | .mono10p => 5 * w / 4
  | .mono12p => 3 * w / 2
  | .mono16 => 2 * w

/-- The line assembler: exactly `w` samples, padded with input value 0 or cut (R86). -/
def assemble (w : Nat) (samples : List Nat) : List Nat := (samples ++ List.replicate w 0).take w

/-- The exact fraction `num / den`, `den` positive, turned into a whole number by the rounding mode (R102). -/
def roundQuotient (m : Rounding) (num : Int) (den : Nat) : Int :=
  let q := num / (den : Int)
  let r := num % (den : Int)
  if r = 0 then q else
    match m with
    | .nearestEven =>
      if 2 * r < den then q else if (den : Int) < 2 * r then q + 1 else if q % 2 = 0 then q else q + 1
    | .towardZero => if num < 0 then q + 1 else q
    | .down => q
    | .up => q + 1

/-- The rounded value r of sample `x` at depth `d` (R101): v = (x − b) × (k / 4,096) × 2^(o − d), taken exactly as the
fraction (x − b) × k × 2^o over 4,096 × 2^d. -/
def convertSample (c : Conversion) (f : Format) (d x : Nat) : Int :=
  roundQuotient c.rounding (((x : Int) - c.blackOffset) * (c.gain : Int) * ((2 ^ f.bits : Nat) : Int)) (4096 * 2 ^ d)

/-- What range handling makes of a rounded value: the output value, and whether it counts as clipped_low, clipped_high or
marked. -/
structure Ranged where
  value : Nat
  low : Bool := false
  high : Bool := false
  mark : Bool := false
  deriving DecidableEq, Repr

/-- Range handling (R103, R104). -/
def rangeValue (m : RangeMode) (f : Format) (r : Int) : Ranged :=
  match m with
  | .saturate =>
    if r < 0 then { value := 0, low := true }
    else if (f.maxOut : Int) < r then { value := f.maxOut, high := true }
    else { value := r.toNat }
  | .mark =>
    if r < 0 then { value := f.maxOut, mark := true }
    else if (f.maxOut : Int) < r then { value := f.maxOut, mark := true }
    else if r = (f.maxOut : Int) then { value := f.maxOut - 1 }
    else { value := r.toNat }

/-- One assembled line converted: its output values and the counts it raises. -/
structure ConvertedLine where
  values : List Nat
  low : Nat
  high : Nat
  mark : Nat
  deriving DecidableEq, Repr

/-- The conversion of an assembled line (R101 to R104). -/
def convertLine (c : Conversion) (f : Format) (d : Nat) (samples : List Nat) : ConvertedLine :=
  let rs := samples.map fun x => rangeValue c.rangeMode f (convertSample c f d x)
  { values := rs.map (·.value), low := rs.countP (·.low), high := rs.countP (·.high), mark := rs.countP (·.mark) }

/-- A number as one byte. -/
def byteOf (v : Nat) : Byte := BitVec.ofNat 8 v

/-- Groups of 4 samples in 5 bytes (MONO10P, R200). -/
def pack10 : List Nat → List Byte
  | a :: b :: c :: d :: t =>
    byteOf (a / 4) :: byteOf (b / 4) :: byteOf (c / 4) :: byteOf (d / 4) ::
      byteOf (a % 4 * 64 + b % 4 * 16 + c % 4 * 4 + d % 4) :: pack10 t
  | _ => []

/-- Pairs of samples in 3 bytes (MONO12P, R200). -/
def pack12 : List Nat → List Byte
  | a :: b :: t => byteOf (a / 16) :: byteOf (b / 16) :: byteOf (a % 16 * 16 + b % 16) :: pack12 t
  | _ => []

/-- The bytes of a line's output values (R200). -/
def packLine (f : Format) (values : List Nat) : List Byte :=
  match f with
  | .mono8 => values.map byteOf
  | .mono16 => values.flatMap fun v => [byteOf (v / 256), byteOf v]
  | .mono10p => pack10 values
  | .mono12p => pack12 values

/-- The output values of a line that are valid: all of them under SATURATE, those other than max_out under MARK (R109). -/
def validValues (m : RangeMode) (f : Format) (values : List Nat) : List Nat :=
  match m with
  | .saturate => values
  | .mark => values.filter fun v => v != f.maxOut

/-- One line folded into the preview columns: column c takes values cD to cD + D − 1 (R109). -/
def foldColumns (m : RangeMode) (f : Format) (d : Nat) : List (Nat × Nat) → List Nat → List (Nat × Nat)
  | [], _ => []
  | (sum, n) :: cols, values =>
    let mine := validValues m f (values.take d)
    (sum + mine.sum, n + mine.length) :: foldColumns m f d cols (values.drop d)

/-- `n` empty preview columns. -/
def emptyColumns (n : Nat) : List (Nat × Nat) := List.replicate n (0, 0)

/-- The preview value of one column (R110). -/
def previewValue (m : Rounding) (f : Format) (col : Nat × Nat) : Byte :=
  if col.2 = 0 then 255
  else byteOf (min 254 (roundQuotient m ((col.1 * 2 ^ 8 : Nat) : Int) (col.2 * 2 ^ f.bits)).toNat)

/-- Preview lines of a frame with `l` stored lines at factor `d`: `l / d` rounded up (R111). -/
def previewLinesOf (l d : Nat) : Nat := (l + d - 1) / d

/-! ## CRC-32 (R200) -/

/-- The register with one more bit taken in. -/
def crcBit (reg : BitVec 32) (b : Bool) : BitVec 32 :=
  let out := reg.msb != b
  let shifted := reg <<< 1
  if out then shifted ^^^ 0x04C11DB7 else shifted

/-- A byte enters least significant bit first. -/
def crcByte (reg : BitVec 32) (b : Byte) : BitVec 32 :=
  [0, 1, 2, 3, 4, 5, 6, 7].foldl (fun r i => crcBit r (b.getLsbD i)) reg

/-- The CRC of content bytes: register of all ones, final value bit-reversed and inverted. -/
def crc32 (content : List Byte) : BitVec 32 := ~~~(content.foldl crcByte 0xFFFFFFFF).reverse

/-- The CRC of content bytes, sent most significant byte first. -/
def crcBytes (content : List Byte) : List Byte := be 4 (crc32 content).toNat

end Sys2Proof.Machine
end

