-- ==== Sys2Proof/Machine/Ops.lean ====
section
/-! DEFINITION. The operations every block uses: its own part of the state, free orders, notices and messages (R169,
R194, R197), the store's bytes, and the device reset (R198). -/

namespace Sys2Proof.Machine

/-! ## Parts of the state -/

/-- The part is in device reset (R198). -/
def inReset (s : State) : Bool := s.hold.power || s.hold.rst || s.hold.request.isSome

/-- Trigger channel `n`. -/
def State.chan (s : State) (n : Unit8) : Channel := s.trgu.channels[n]

/-- The state with trigger channel `n` replaced. -/
def State.setChan (s : State) (n : Unit8) (c : Channel) : State :=
  { s with trgu := { s.trgu with channels := s.trgu.channels.set n c } }

/-- The state with the eject timer replaced. -/
def State.setEject (s : State) (e : EjectTimer) : State := { s with trgu := { s.trgu with eject := e } }

/-- Camera port `n`. -/
def State.port (s : State) (n : Unit8) : Port := s.ports[n]

/-- The state with camera port `n` replaced. -/
def State.setPort (s : State) (n : Unit8) (p : Port) : State := { s with ports := s.ports.set n p }

/-- Packer `n`. -/
def State.packer (s : State) (n : Unit8) : Packer := s.packers[n]

/-- The state with packer `n` replaced. -/
def State.setPacker (s : State) (n : Unit8) (p : Packer) : State := { s with packers := s.packers.set n p }

/-- The receiver lock flag of port `n` (R77). -/
def State.locked (s : State) (n : Unit8) : Bool := s.pins.lock[n]

/-- The state with record slot `i` replaced. -/
def State.setSlot (s : State) (i : Fin 512) (sl : Slot) : State :=
  { s with fsto := { s.fsto with slots := s.fsto.slots.set i sl } }

/-- The state with POSU, ITAB, FSTO, LNK, FWD or RNU replaced. -/
def State.setPosu (s : State) (p : Posu) : State := { s with posu := p }
/-- See `State.setPosu`. -/
def State.setCapu (s : State) (c : Capu) : State := { s with capu := c }
/-- See `State.setPosu`. -/
def State.setItab (s : State) (t : Itab) : State := { s with itab := t }
/-- See `State.setPosu`. -/
def State.setFsto (s : State) (f : Fsto) : State := { s with fsto := f }
/-- See `State.setPosu`. -/
def State.setLnk (s : State) (l : Lnk) : State := { s with lnk := l }
/-- See `State.setPosu`. -/
def State.setFwd (s : State) (f : Fwd) : State := { s with fwd := f }
/-- See `State.setPosu`. -/
def State.setRnu (s : State) (r : Rnu) : State := { s with rnu := r }

/-! ## Free orders (log entry 2) -/

/-- `x` put into `l` at place `i`. -/
def putAt {α : Type} (x : α) : Nat → List α → List α
  | 0, l => x :: l
  | _ + 1, [] => [x]
  | i + 1, y :: t => y :: putAt x i t

/-- The members of a list in an order the spec leaves open: each is put at a free place among those after it. A list of
fewer than two members has but one order. -/
def arrange {α : Type} (k : Nat) : List α → List α
  | [] => []
  | x :: t =>
    match t with
    | [] => [x]
    | _ :: _ => putAt x (Config.orderChoice k % (t.length + 1)) (arrange (k + 1) t)

/-- The state after `n` choices. -/
def State.choseOrder (s : State) (n : Nat) : State := { s with orderIndex := s.orderIndex + n }

/-- `f` done for each member of `l`, in an order the spec leaves open. -/
def forEachFree {α : Type} (l : List α) (f : α → State → State) (s : State) : State :=
  (arrange s.orderIndex l).foldl (fun s x => f x s) (s.choseOrder (l.length - 1))

/-! ## Time (log entry 1) -/

/-- A frame is going out, of which byte positions are counted (section 8.3). -/
def Transmission.counts : Transmission → Bool
  | .silent => false
  | .breakFill => false
  | .idle _ _ _ => true
  | .control _ _ => true
  | .image _ => true

/-- `n` stamp units pass: the stamp clock counts (00_scope 5.3), the rate generator moves through its interval (R4), and
12 byte positions go out in each (section 8.3). In device reset every block is held, and only the 10 µs of RESET_DEVICE run
down (R198). -/
def elapse (n : Nat) (s : State) : State :=
  if inReset s then { s with hold := { s.hold with request := s.hold.request.map fun k => k - n } }
  else { s with
    stamp := stampPlus s.stamp n
    posu := { s.posu with genPhase := s.posu.genPhase + s.posu.synthSpeed * n }
    lnk := { s.lnk with txSent := s.lnk.txSent + (if s.lnk.tx.counts then 12 * n else 0) } }

/-- The clock carried forward to `t`, the end of a timer whose event is taken; where `t` has passed it stands. -/
def reachTime (t : Stamp) (s : State) : State := if timeUp s.stamp t then s else elapse (t - s.stamp).toNat s

/-! ## Notices and messages -/

/-- The occupancy of the control queue (R168). -/
def occupancy (f : Fwd) : Nat := f.control.length + (if f.reserved then 1 else 0)

/-- The state with an entry at the tail of the control queue. -/
def State.pushControl (s : State) (e : ControlEntry) : State :=
  s.setFwd { s.fwd with control := s.fwd.control ++ [e] }

/-- The state with one more message dropped (R169). -/
def State.countDropped (s : State) : State :=
  s.setFwd { s.fwd with counters := { s.fwd.counters with messagesDropped := s.fwd.counters.messagesDropped + 1 } }

/-- The state with a flag in the OFFICE view, and nothing said of it. -/
def State.joinOffice (s : State) (n : Notice) : State :=
  s.setRnu { s.rnu with officeView := s.rnu.officeView ||| n.bit }

/-- A MESSAGE frame (R200). -/
def messageFrame (type : Byte) (body : List Byte) : ControlFrame :=
  { kind := .message, tag := 0, op := type, body := body }

/-- A message finds room: the link is UP and the occupancy is below 32 (R169). -/
def messageRoom (s : State) : Bool := decide (s.lnk.state = .up) && decide (occupancy s.fwd < 32)

/-- The NOTICE message of R197, offered by R169. A NOTICE that is dropped sets MESSAGE_LOST in a view that holds an
unmasked flag already, so it offers no second one. -/
def offerNotice (s : State) : State :=
  if messageRoom s then
    s.pushControl { frames := [messageFrame 0x04 (noticeBytes s.rnu.officeView ++ noticeBytes s.rnu.officeMask)] }
  else s.countDropped.joinOffice .messageLost

/-- The view of OFFICE may have gone from holding no unmasked flag to holding one: then a NOTICE is offered (R197). -/
def callOffice (before : Rnu) (s : State) : State :=
  if !officeCalls before && officeCalls s.rnu then offerNotice s else s

/-- A flag set in the LINE view (R194). -/
def setLine (n : Notice) (s : State) : State := s.setRnu { s.rnu with lineView := s.rnu.lineView ||| n.bit }

/-- A flag set in the OFFICE view (R194, R197). -/
def setOffice (n : Notice) (s : State) : State := callOffice s.rnu (s.joinOffice n)

/-- A flag set in both views. -/
def setBoth (n : Notice) (s : State) : State := setOffice n (setLine n s)

/-- A message that another block asks FWD to queue (R169). -/
def queueMessage (type : Byte) (body : List Byte) (s : State) : State :=
  if messageRoom s then s.pushControl { frames := [messageFrame type body] }
  else setOffice .messageLost s.countDropped

/-! ## The store's bytes -/

/-- Bytes in a store block. -/
def blockBytes : Nat := 262144

/-- What a byte of the store that nothing has written reads as; no frame reads one (R115, log entry 6). -/
def unwrittenByte : Byte := 0

/-- The canonical form: addresses strictly rising, and no cell that holds what an unlisted address reads as. -/
def memWf : List Host.Cell → Bool
  | [] => true
  | (a, b) :: t => decide (b ≠ unwrittenByte) && (t.all fun c => decide (a < c.1)) && memWf t

/-- The byte at an address. -/
def memRead : List Host.Cell → Nat → Byte
  | [], _ => unwrittenByte
  | (k, v) :: t, a => if a = k then v else memRead t a

/-- The store with one byte written. -/
def memWrite : List Host.Cell → Nat → Byte → List Host.Cell
  | [], a, b => if b = unwrittenByte then [] else [(a, b)]
  | (k, v) :: t, a, b =>
    if a < k then (if b = unwrittenByte then (k, v) :: t else (a, b) :: (k, v) :: t)
    else if a = k then (if b = unwrittenByte then t else (a, b) :: t)
    else (k, v) :: memWrite t a b

/-- The address of byte `off` of the run that a block list makes, its blocks in list order (R105, R112). -/
def runAddress (blocks : List Block) (off : Nat) : Nat :=
  (blocks.getD (off / blockBytes) 0).toNat * blockBytes + off % blockBytes

/-- Bytes written into a run from offset `off` on. -/
def writeRun (blocks : List Block) : Nat → List Byte → List Host.Cell → List Host.Cell
  | _, [], m => m
  | off, b :: t, m => writeRun blocks (off + 1) t (memWrite m (runAddress blocks off) b)

/-- `n` bytes of a run from offset `off` on. -/
def readRun (blocks : List Block) (m : List Host.Cell) : Nat → Nat → List Byte
  | _, 0 => []
  | off, n + 1 => memRead m (runAddress blocks off) :: readRun blocks m (off + 1) n

/-! ## Device reset (R198) -/

/-- Every block at its reset values (R19, R30, R50, R75, R97, R114, R134, R149, R167, R187 and R198). The levels on the
pins are the world's and stay; what waits stays; the holds are the caller's to set. -/
def deviceReset (hold : ResetHold) (s : State) : State :=
  { pending := s.pending, orderIndex := s.orderIndex, pins := s.pins, hold := hold }

end Sys2Proof.Machine
end

