-- ==== Sys2Proof/Machine/Records.lean ====
section
/-! DEFINITION. The bytes of item and frame records, and of the messages made of them (R40, R47, R132, R144, R175, R199). -/

namespace Sys2Proof.Machine

/-- An optional position, tag or handle. -/
def optPos (p : Option Pos) : List Byte := optBytes 4 (p.map posBytes)
/-- See `optPos`. -/
def optTag (t : Option (BitVec 32)) : List Byte := optBytes 4 (t.map fun v => be 4 v.toNat)
/-- See `optPos`. -/
def optHandle (h : Option Handle) : List Byte := optBytes 2 (h.map handleBytes)
/-- An optional field of one byte. -/
def optByte (b : Option Byte) : List Byte := optBytes 1 (b.map fun x => [x])

/-- A shot entry: status, reason and handle, 6 bytes. -/
def shotBytes (x : Shot) : List Byte :=
  x.code :: (optByte (x.reason.map MissReason.code) ++ optHandle x.handle)

/-- The shot entries of an item, channel 0 to 7. -/
def Item.shotList (it : Item) : List Byte := it.shots.toList.flatMap shotBytes

/-- The length of an item whose end is known: end minus start. -/
def Item.length (it : Item) : Nat :=
  match it.endPos with
  | some e => (e - it.start).toNat
  | none => 0

/-- The body of ITEM_READY (R40). -/
def itemReadyBody (it : Item) : List Byte :=
  itemBytes it.number ++ optTag it.tag ++ posBytes it.start ++ be 4 it.length ++ [it.flags.byte] ++ it.shotList

/-- The body of ITEM_RETIRED (R144), for a retirement and for a withdrawal. -/
def itemRetiredBody (it : Item) (verdict : VerdictCopy) (source : VerdictSource) (at_ : Pos) (stamp : Stamp) : List Byte :=
  itemBytes it.number ++ optTag it.tag ++ [verdict.code, source.code, it.state.code, it.flags.byte] ++ posBytes at_ ++
    stampBytes stamp

/-- The snapshot of READ_ITEM (R47): the item record table of section 2.4. -/
def itemSnapshot (it : Item) : List Byte :=
  itemBytes it.number ++ [it.origin.code, it.state.code] ++ posBytes it.start ++ optPos it.endPos ++ posBytes it.ejectAt ++
    optTag it.tag ++ it.shotList ++ optByte (it.officeVerdict.map Verdict.code) ++
    optByte (it.lineOverride.map Verdict.code) ++ [it.flags.byte]

/-- The byte total of a record's full part: lines received times the bytes per line of the recorded format (R132, R175). -/
def FrameRecord.fullBytes (r : FrameRecord) : Nat := r.lines * r.format.lineBytes r.width

/-- The bytes of one preview line: width/D, and none with the preview off. -/
def FrameRecord.previewLineBytes (r : FrameRecord) : Nat :=
  match r.preview with
  | some d => r.width / d
  | none => 0

/-- The byte total of a record's preview part: preview lines written times width/D (R132, R175). -/
def FrameRecord.previewBytes (r : FrameRecord) : Nat := r.previewLines * r.previewLineBytes

/-- The byte total of a part. -/
def FrameRecord.partBytes (r : FrameRecord) : Part → Nat
  | .full => r.fullBytes
  | .preview => r.previewBytes

/-- The block list of a part. -/
def FrameRecord.partBlocks (r : FrameRecord) : Part → List Block
  | .full => r.fullBlocks
  | .preview => r.previewBlocks

/-- An optional stamp, camera frame counter, truncation reason and verdict source. -/
def optStamp (t : Option Stamp) : List Byte := optBytes 6 (t.map stampBytes)
/-- See `optStamp`. -/
def optCounter (c : Option (BitVec 16)) : List Byte := optBytes 2 (c.map fun v => be 2 v.toNat)

/-- The snapshot of READ_FRAME (R132): the frame record table of section 6.1, each block list as count and byte total,
and then whether the record is on the age list and eligible. -/
def frameSnapshot (h : Handle) (r : FrameRecord) (onAge eligible : Bool) : List Byte :=
  handleBytes h ++ [byteOf r.port.val] ++ itemBytes r.item ++ [r.state.code] ++
    optByte (r.state.reason.map TruncReason.code) ++ posBytes r.shotPosition ++ stampBytes r.fireStamp ++
    optStamp r.endStamp ++ optCounter r.cameraCounter ++ [r.format.code, previewByte r.preview] ++ be 2 r.width ++
    be 2 r.lines ++ be 2 r.missing ++ be 2 r.bad ++ be 4 r.clippedLow ++ be 4 r.clippedHigh ++ be 4 r.marked ++
    [r.flags.byte] ++ be 2 r.fullBlocks.length ++ be 4 r.fullBytes ++ be 1 r.previewBlocks.length ++ be 4 r.previewBytes ++
    [r.previewState.code, r.fullState.code, r.holders.byte, r.copy.code] ++
    optByte (r.copySource.map VerdictSource.code) ++ [boolByte onAge, boolByte eligible]

/-- Bytes of payload in a whole segment. -/
def segmentBytes : Nat := 8192

/-- The segment count of a part: its byte total over 8,192, rounded up, and 1 for a byte total of 0 (R175). -/
def segmentCount (total : Nat) : Nat := max 1 ((total + segmentBytes - 1) / segmentBytes)

/-- The body of TRANSFER_BEGIN (R175). -/
def transferBeginBody (h : Handle) (part : Part) (restart : Bool) (r : FrameRecord) : List Byte :=
  handleBytes h ++ [part.code, boolByte restart, byteOf r.port.val] ++ itemBytes r.item ++ [r.state.code] ++
    optByte (r.state.reason.map TruncReason.code) ++ posBytes r.shotPosition ++ stampBytes r.fireStamp ++
    optStamp r.endStamp ++ optCounter r.cameraCounter ++ [r.format.code] ++ be 2 r.width ++ be 2 r.lines ++
    be 2 r.missing ++ be 2 r.bad ++ [r.flags.byte, previewByte r.preview] ++
    be 2 (match part with | .full => 0 | .preview => r.previewLines) ++ [r.copy.code] ++
    optByte (r.copySource.map VerdictSource.code) ++ be 4 (r.partBytes part) ++ be 2 (segmentCount (r.partBytes part))

end Sys2Proof.Machine
end

