-- ==== Sys2Proof/Machine/Reports.lean ====
section
/-! DEFINITION. Item lookup (R33), the reports that settle shot entries (R39), and completion (R40). -/

namespace Sys2Proof.Machine

/-- The live item with a number (R33). -/
def findItem (s : State) (n : Nat) : Option Item := s.itab.items.find? fun it => it.number == n

/-- The state with the live item of a number changed. -/
def modItem (n : Nat) (f : Item → Item) (s : State) : State :=
  s.setItab { s.itab with items := s.itab.items.map fun it => if it.number = n then f it else it }

/-- The highest item number (00_scope 5.4). -/
def lastNumber : Nat := 16777215

/-- The back distance of R33: the steps from `n` to the next item number along 1, 2, …, 16,777,215, 1, 2, …. -/
def backDistance (n next : Nat) : Nat := (next + lastNumber - n) % lastNumber

/-- A number that is not live is gone (R33). -/
def isGone (t : Itab) (n : Nat) : Bool :=
  decide (n ≠ 0) && decide (n ≤ lastNumber) && decide (1 ≤ backDistance n t.nextNumber) &&
    decide (backDistance n t.nextNumber ≤ t.assigned)

/-- The answer for a number that is not live (R33). -/
def absentItem (t : Itab) (n : Nat) : Result := if isGone t n then .gone else .unknownItem

/-- The reports of R39. -/
inductive Report where
  | fired (h : Handle)
  | missed (r : MissReason)
  | expired
  | completed
  | truncated
  | fault
  deriving DecidableEq, Repr

/-- A report applied to an item record (R39). A report whose entry-before does not hold is not applied. -/
def Item.apply (it : Item) (ch : Unit8) (r : Report) : Item :=
  match r, it.shots[ch] with
  | .fired h, .pending => { it with shots := it.shots.set ch (.fired h) }
  | .missed m, .pending =>
    { it with shots := it.shots.set ch (.missed m), flags := { it.flags with missedShot := true } }
  | .expired, .fired _ =>
    { it with shots := it.shots.set ch (.missed .noFrame), flags := { it.flags with missedShot := true } }
  | .completed, .fired h => { it with shots := it.shots.set ch (.taken h) }
  | .truncated, .fired h =>
    { it with shots := it.shots.set ch (.taken h), flags := { it.flags with truncatedFrame := true } }
  | .fault, .fired _ => { it with flags := { it.flags with conversionFault := true } }
  | _, _ => it

/-- A shot entry that no later report changes: NONE, TAKEN or MISSED. -/
def Shot.settled : Shot → Bool
  | .none => true
  | .pending => false
  | .fired _ => false
  | .taken _ => true
  | .missed _ => true

/-- The end of an item is known and each of its entries is settled (R40). -/
def Item.settled (it : Item) : Bool := it.endPos.isSome && it.shots.toList.all Shot.settled

/-- An item becomes COMPLETE at the first event after which it is settled, and one ITEM_READY is queued for it (R40). -/
def completeIfSettled (n : Nat) (s : State) : State :=
  match findItem s n with
  | none => s
  | some it =>
    if decide (it.state ≠ .complete) && it.settled then
      queueMessage 0x01 (itemReadyBody it) (modItem n (fun i => { i with state := .complete }) s)
    else s

/-- A report to ITAB against an item number and a channel, and the completion it may bring (R39, R40). -/
def report (n : Nat) (ch : Unit8) (r : Report) (s : State) : State :=
  completeIfSettled n (modItem n (fun it => it.apply ch r) s)

/-- A report while the item is being created: completion waits for the end of the creation (R35, R41). -/
def reportAtCreation (n : Nat) (ch : Unit8) (r : Report) (s : State) : State :=
  modItem n (fun it => it.apply ch r) s

end Sys2Proof.Machine
end

