-- ==== Sys2Proof/Machine/Store.lean ====
section
/-! DEFINITION. The operations of FSTO (06_frame_store_and_catalogue.md), and FWD's part in the end of a frame (R179, R182). -/

namespace Sys2Proof.Machine

/-! ## Records by handle (R119) -/

/-- The record a valid handle names; none for a stale handle and for one of a free slot (R119). -/
def recordAt (s : State) (h : Handle) : Option FrameRecord :=
  if s.fsto.slots[h.slot].gen = h.gen then s.fsto.slots[h.slot].record else none

/-- The state with the record that a handle names changed. -/
def modRecord (h : Handle) (f : FrameRecord → FrameRecord) (s : State) : State :=
  match recordAt s h with
  | none => s
  | some r => s.setSlot h.slot { gen := h.gen, record := some (f r) }

/-- A record has ended: it is COMPLETE or TRUNCATED. -/
def RecordState.finished : RecordState → Bool
  | .expected => false
  | .filling => false
  | .complete => true
  | .truncated _ => true

/-- A record belongs to a live item (R125). -/
def FrameRecord.live (r : FrameRecord) : Bool := decide (r.item ≠ 0) && decide (r.copy = .none)

/-- Eligibility (R126). -/
def FrameRecord.eligible (r : FrameRecord) : Bool :=
  r.state.finished && !r.holders.line && !r.holders.office &&
    (decide (r.previewState = .sent) || decide (r.previewState = .skipped)) &&
    (decide (r.fullState = .none) || decide (r.fullState = .sent)) && !r.live

/-- A handle names an eligible record. -/
def eligibleAt (s : State) (h : Handle) : Bool :=
  match recordAt s h with
  | none => false
  | some r => r.eligible

/-- The 512 record slots by rising number, each with what it holds. -/
def slotTable (s : State) : List (Fin 512 × Slot) := ((List.range 512).map (Fin.ofNat 512)).zip s.fsto.slots.toList

/-- A slot holds a record which passes a test. -/
def Slot.holds (p : FrameRecord → Bool) (sl : Slot) : Bool :=
  match sl.record with
  | none => false
  | some r => p r

/-- The handles of the records that pass a test, by rising slot number. -/
def handlesWhere (s : State) (p : FrameRecord → Bool) : List Handle :=
  ((slotTable s).filter fun x => x.2.holds p).map fun x => { slot := x.1, gen := x.2.gen }

/-! ## Freeing and eviction -/

/-- A record freed (R115, R119, R124): its blocks join the tail of the pool, full list and then preview list; its slot is
free with the generation advanced; its handle leaves the age list and FWD's image queues. -/
def freeRecord (h : Handle) (s : State) : State :=
  match recordAt s h with
  | none => s
  | some r =>
    let f := { s.fsto with
      pool := s.fsto.pool ++ r.fullBlocks ++ r.previewBlocks
      slots := s.fsto.slots.set h.slot { gen := h.gen + 1, record := none }
      age := s.fsto.age.filter fun a => a != h }
    { s with
      fsto := f
      fwd := { s.fwd with
        pull := s.fwd.pull.filter fun e => e.handle != h
        preview := s.fwd.preview.filter fun e => e.handle != h } }

/-- An eviction (R127). -/
def evict (h : Handle) (s : State) : State :=
  let s1 := freeRecord h s
  s1.setFsto { s1.fsto with evictions := s1.fsto.evictions + 1 }

/-- The oldest eligible record of the age list (R126). -/
def oldestEligible (s : State) : Option Handle := s.fsto.age.find? fun h => eligibleAt s h

/-- Eligible records evicted, oldest first, until the pool holds `n` blocks or the age list is at its end (R117 case 2). -/
def evictUntil (n : Nat) : List Handle → State → State
  | [], s => s
  | h :: t, s =>
    if n ≤ s.fsto.pool.length then s
    else if eligibleAt s h then evictUntil n t (evict h s)
    else evictUntil n t s

/-! ## Blocks for a line (R116, R117) -/

/-- `k` blocks leave the head of the pool; a fall from LOW_WATER or above to below it sets STORE_PRESSURE (R116). -/
def takeBlocks (k : Nat) (s : State) : List Block × State :=
  let free := s.fsto.pool.length
  let s1 := s.setFsto { s.fsto with pool := s.fsto.pool.drop k }
  (s.fsto.pool.take k,
    if decide (s.fsto.lowWater ≤ free) && decide (free - k < s.fsto.lowWater) then setBoth .storePressure s1 else s1)

/-- A room request for the record of a handle (R117): whether it is granted, and the state after. -/
def roomRequest (h : Handle) (full preview : Bool) (s : State) : Bool × State :=
  let n := (if full then 1 else 0) + (if preview then 1 else 0)
  let s1 := evictUntil n s.fsto.age s
  if n ≤ s1.fsto.pool.length then
    let (blocks, s2) := takeBlocks n s1
    (true, modRecord h (fun r => { r with
      fullBlocks := r.fullBlocks ++ (if full then blocks.take 1 else [])
      previewBlocks := r.previewBlocks ++ (if preview then blocks.drop (n - 1) else []) }) s2)
  else
    (false, s1.setFsto { s1.fsto with blockShortages := s1.fsto.blockShortages + 1 })

/-! ## Records for shots (R99, R119, R120) -/

/-- The lowest-numbered free slot. -/
def freeSlot (s : State) : Option (Fin 512) :=
  ((slotTable s).find? fun x => x.2.record.isNone).map (·.1)

/-- A new record in slot `i` for port `n` (R119), with the packer's format and preview setting (R99). -/
def placeRecord (i : Fin 512) (n : Unit8) (item : Nat) (pos : Pos) (filling : Bool) (s : State) : Handle × State :=
  let gen := s.fsto.slots[i].gen
  let p := s.packer n
  ({ slot := i, gen := gen },
    s.setSlot i { gen := gen, record := some {
      port := n, item := item, state := if filling then .filling else .expected, shotPosition := pos
      fireStamp := s.stamp, format := p.conversion.format
      preview := if p.previewOn then some p.previewFactor else none
      width := (s.port n).width } })

/-- A record request of channel `n` (R119, R120): the new handle, or none, and the state after. -/
def allocRecord (n : Unit8) (item : Nat) (pos : Pos) (filling : Bool) (s : State) : Option Handle × State :=
  match freeSlot s with
  | some i =>
    let (h, s1) := placeRecord i n item pos filling s
    (some h, s1)
  | none =>
    match oldestEligible s with
    | some old =>
      let (h, s1) := placeRecord old.slot n item pos filling (evict old s)
      (some h, s1)
    | none =>
      (none, setBoth .storeFull (s.setFsto { s.fsto with recordShortages := s.fsto.recordShortages + 1 }))

/-! ## Pulls and auto-full (R172, R179, R182) -/

/-- The number of records whose full state is AWAIT. -/
def awaitCount (s : State) : Nat := (handlesWhere s fun r => decide (r.fullState = .await)).length

/-- The pull load (section 9.1). -/
def pullLoad (s : State) : Nat := s.fwd.pull.length + awaitCount s

/-- A finished record's handle joins the tail of the pull queue with the restart mark clear, and its full state becomes
QUEUED. -/
def joinPull (h : Handle) (s : State) : State :=
  modRecord h (fun r => { r with fullState := .queued })
    (s.setFwd { s.fwd with pull := s.fwd.pull ++ [{ handle := h }] })

/-- An auto entry is due for a record (R182), at its end work or at its item's retirement. -/
def autoDue (s : State) (atEnd : Bool) (h : Handle) : Bool :=
  match recordAt s h with
  | none => false
  | some r =>
    r.state.finished && decide (r.fullState = .none) &&
      match s.fwd.autoFull[r.port] with
      | .none => false
      | .all => atEnd
      | .onReject => decide (r.copy = .reject)

/-- The auto-full policy of a record's port applied to the record (R182). -/
def applyAutoFull (atEnd : Bool) (h : Handle) (s : State) : State :=
  if autoDue s atEnd h then
    if pullLoad s < 64 then joinPull h s
    else setOffice .autoFullSkipped (s.setFwd { s.fwd with
      counters := { s.fwd.counters with autoFullSkipped := s.fwd.counters.autoFullSkipped + 1 } })
  else s

/-! ## End work (R121, R123) -/

/-- The preview part settled at end work: QUEUED with the handle in the preview queue, or SKIPPED (R123 step 3). -/
def settlePreview (h : Handle) (s : State) : State :=
  match recordAt s h with
  | none => s
  | some r =>
    if r.preview.isSome && !r.previewBlocks.isEmpty then
      modRecord h (fun r => { r with previewState := .queued })
        (s.setFwd { s.fwd with preview := s.fwd.preview ++ [{ handle := h }] })
    else modRecord h (fun r => { r with previewState := .skipped }) s

/-- A waiting pull handed over at end work (R123 step 4, R179). -/
def handOverPull (h : Handle) (s : State) : State :=
  match recordAt s h with
  | none => s
  | some r => if r.fullState = .await then joinPull h s else s

/-- The report of a finished record to ITAB, for a record of a live item (R123 step 2). -/
def reportEnd (h : Handle) (s : State) : State :=
  match recordAt s h with
  | none => s
  | some r =>
    if r.live then report r.item r.port (if r.state = .complete then .completed else .truncated) s else s

/-- A record becomes COMPLETE or TRUNCATED, and its end work is done (R121, R123). -/
def endRecord (h : Handle) (final : RecordState) (s : State) : State :=
  match recordAt s h with
  | none => s
  | some _ =>
    let s1 := modRecord h (fun r => { r with state := final, endStamp := some s.stamp }) s
    let s2 := s1.setFsto { s1.fsto with age := s1.fsto.age ++ [h] }
    applyAutoFull true h (handOverPull h (settlePreview h (reportEnd h s2)))

/-! ## The verdict copy (R125, R141) -/

/-- The verdict copy written into a record that names the item and has none yet; `hold` adds OFFICE to its holders. -/
def FrameRecord.takeCopy (item : Nat) (c : VerdictCopy) (src : VerdictSource) (hold : Bool) (r : FrameRecord) : FrameRecord :=
  if r.item = item ∧ r.copy = .none then
    { r with copy := c, copySource := some src, holders := if hold then { r.holders with office := true } else r.holders }
  else r

/-- The records that name an item and have verdict copy NONE (R125). -/
def recordsNaming (item : Nat) (s : State) : List Handle :=
  handlesWhere s fun r => decide (r.item = item) && decide (r.copy = .none)

/-- The verdict copy written into every record that names the item and has none yet, in every state (R125, R141). -/
def writeCopies (item : Nat) (c : VerdictCopy) (src : VerdictSource) (hold : Bool) (s : State) : State :=
  s.setFsto { s.fsto with slots := s.fsto.slots.map fun sl => { sl with record := sl.record.map (·.takeCopy item c src hold) } }

end Sys2Proof.Machine
end

