-- ==== Sys2Proof/Machine/Frames.lean ====
section
/-! DEFINITION. Frames in reception: the packer's context and its previews (R98, R105, R107, R109, R111), the storing of
a line (R86, R105), and the end of a port's frame. -/

namespace Sys2Proof.Machine

/-- The state with port `n` changed. -/
def modPort (n : Unit8) (f : Port → Port) (s : State) : State := s.setPort n (f (s.port n))

/-- The state with the counters of port `n` changed (R94). -/
def countPort (n : Unit8) (f : PortCounters → PortCounters) (s : State) : State :=
  modPort n (fun p => { p with counters := f p.counters }) s

/-- The state with channel `n` changed. -/
def modChan (n : Unit8) (f : Channel → Channel) (s : State) : State := s.setChan n (f (s.chan n))

/-- A port at rest: IDLE, UNLOCKED or DISABLED (R51, R76). -/
def PortState.atRest : PortState → Bool
  | .disabled => true
  | .idle => true
  | .armed => false
  | .receiving => false
  | .draining => false
  | .unlocked => true

/-- A HALTING channel with an empty queue, no open window and a port at rest becomes IDLE with plan OFF (R71, R51). Done
at each event that changes one of these, the port's report of rest among them (R76). -/
def settleChannel (n : Unit8) (s : State) : State :=
  let c := s.chan n
  if decide (c.state = .halting) && c.queue.isEmpty && c.window.isNone && (s.port n).state.atRest then
    s.setChan n { c with state := .idle, plan := .off, freeRun := none }
  else s

/-! ## The packer's frame context -/

/-- A frame context begins with the accumulator empty and the row count at 0 (R98). -/
def beginContext (n : Unit8) (h : Handle) (s : State) : State :=
  match recordAt s h with
  | none => s
  | some r =>
    let columns := match r.preview with
      | some d => emptyColumns (r.width / d)
      | none => []
    s.setPacker n { s.packer n with context := some { handle := h, preview := r.preview, columns := columns, rows := 0 } }

/-- The preview line of the accumulator written into the room claimed at the row's first line (R109, R110, R111). -/
def writePreviewLine (n : Unit8) (ctx : FrameContext) (s : State) : State :=
  match recordAt s ctx.handle with
  | none => s
  | some r =>
    let line := ctx.columns.map (previewValue (s.packer n).conversion.rounding r.format)
    let s1 := s.setFsto { s.fsto with
      mem := writeRun r.previewBlocks (r.previewLines * r.previewLineBytes) line s.fsto.mem }
    modRecord ctx.handle (fun r => { r with previewLines := r.previewLines + 1 }) s1

/-- The packer closes the preview, a partial row as a row of its own, and gives up its context (R98, R111). -/
def endContext (n : Unit8) (s : State) : State :=
  match (s.packer n).context with
  | none => s
  | some ctx =>
    let s1 := if 0 < ctx.rows then writePreviewLine n ctx s else s
    s1.setPacker n { s1.packer n with context := none }

/-- A stored line's values join the preview accumulator; a full row is written and emptied (R109). -/
def accumulate (n : Unit8) (f : Format) (values : List Nat) (s : State) : State :=
  match (s.packer n).context with
  | none => s
  | some ctx =>
    match ctx.preview with
    | none => s
    | some d =>
      let ctx1 := { ctx with
        columns := foldColumns (s.packer n).conversion.rangeMode f d ctx.columns values
        rows := ctx.rows + 1 }
      if ctx1.rows < d then s.setPacker n { s.packer n with context := some ctx1 }
      else
        let s1 := writePreviewLine n ctx1 s
        s1.setPacker n { s1.packer n with context := some { ctx1 with
          columns := emptyColumns ctx1.columns.length, rows := 0 } }

/-! ## The end of a port's frame -/

/-- The current frame of port `n` ends (R98, R121, R123): the preview is closed, the record takes the flags given, the
port gives the frame up and its timer is cancelled, a truncation for STORE_FULL sets its notice (R118), and the end work
is done. The port's next state and its counters are the caller's. -/
def endFrame (n : Unit8) (final : RecordState) (mark : FrameFlags → FrameFlags) (s : State) : State :=
  match (s.port n).current with
  | none => s
  | some h =>
    let s1 := modRecord h (fun r => { r with flags := mark r.flags }) (endContext n s)
    let s2 := modPort n (fun p => { p with current := none, windowEnd := none }) s1
    let s3 := if final = .truncated .storeFull then setBoth .storeFull s2 else s2
    endRecord h final s3

/-- The current frame of port `n` is truncated, and counted so (R89, R91, R92, R94). -/
def truncateFrame (n : Unit8) (r : TruncReason) (s : State) : State :=
  countPort n (fun c => { c with truncated := c.truncated + 1 })
    (endFrame n (.truncated r) (fun f => if r = .long then { f with long := true } else f) s)

/-- The current frame of port `n` is complete, and counted so (R88, R93, R94). -/
def completeFrame (n : Unit8) (mark : FrameFlags → FrameFlags) (s : State) : State :=
  countPort n (fun c => { c with completed := c.completed + 1 }) (endFrame n .complete mark s)

/-! ## Lines (R86, R105, R107) -/

/-- Free bytes in the last block of a list whose run holds `used` bytes. -/
def freeBytes (blocks : List Block) (used : Nat) : Nat := blocks.length * blockBytes - used

/-- Whether a line needs a new full block, and whether it needs a new preview block (R105). -/
def roomNeeded (r : FrameRecord) (ctx : Option FrameContext) : Bool × Bool :=
  (decide (freeBytes r.fullBlocks r.fullBytes < r.format.lineBytes r.width),
    match ctx with
    | none => false
    | some c =>
      c.preview.isSome && decide (c.rows = 0) &&
        decide (freeBytes r.previewBlocks r.previewBytes < r.previewLineBytes))

/-- The fault test of R107, made after the counts of a line are added. -/
def faultTest (n : Unit8) (h : Handle) (s : State) : State :=
  match recordAt s h with
  | none => s
  | some r =>
    let c := (s.packer n).conversion
    if decide (c.faultLimit ≠ 0) && decide (c.faultLimit < r.clippedLow + r.clippedHigh + r.marked) &&
        !r.flags.conversionFault then
      let s1 := modRecord h (fun r => { r with flags := { r.flags with conversionFault := true } }) s
      let s2 := if r.live then report r.item n .fault s1 else s1
      if c.faultReport then setBoth .conversionFault s2 else s2
    else s

/-- The line stored (R105): its bytes, its counts, the fault test, its share of the preview, and lines received. -/
def storeLine (n : Unit8) (h : Handle) (line : ConvertedLine) (s : State) : State :=
  match recordAt s h with
  | none => s
  | some r =>
    let s1 := s.setFsto { s.fsto with mem := writeRun r.fullBlocks r.fullBytes (packLine r.format line.values) s.fsto.mem }
    let s2 := modRecord h (fun r => { r with
      clippedLow := r.clippedLow + line.low, clippedHigh := r.clippedHigh + line.high, marked := r.marked + line.mark }) s1
    let s3 := accumulate n r.format line.values (faultTest n h s2)
    modRecord h (fun r => { r with lines := r.lines + 1 }) s3

/-- A line taken into the current frame of port `n`: assembled (R86), converted, and offered to FSTO (R105, R117). The
answer says whether it was stored; a line refused truncates the frame with STORE_FULL and leaves the port DRAINING (R91,
R118). -/
def offerLine (n : Unit8) (samples : List Nat) (s : State) : Bool × State :=
  match (s.port n).current with
  | none => (false, s)
  | some h =>
    match recordAt s h with
    | none => (false, s)
    | some r =>
      let s1 := if samples.length = r.width then s else
        modRecord h (fun r => { r with bad := r.bad + 1, flags := { r.flags with lineLength := true } }) s
      let line := convertLine (s.packer n).conversion r.format (s.port n).depth (assemble r.width samples)
      let (full, preview) := roomNeeded r (s.packer n).context
      let (granted, s2) := roomRequest h full preview s1
      if granted then (true, storeLine n h line s2)
      else (false, modPort n (fun p => { p with state := .draining }) (truncateFrame n .storeFull s2))

end Sys2Proof.Machine
end

