-- ==== Sys2Proof/Machine/Channels.lean ====
section
/-! DEFINITION. The operations of TRGU (03_trigger_channels.md): pulses, shot fire, SCAN windows, shot queues and halts. -/

namespace Sys2Proof.Machine

/-! ## Pulses (R66, R72) -/

/-- A trigger pulse starts on channel `n` with its active settings, and with strobe enabled a strobe sequence (R66). -/
def startPulse (n : Unit8) (s : State) : State :=
  modChan n (fun c =>
    let a := c.active
    { c with
      trigger := some (stampPlus s.stamp a.width)
      strobe :=
        if a.strobe then
          if a.strobeDelay = 0 then .high (stampPlus s.stamp a.strobeWidth)
          else .delaying (stampPlus s.stamp a.strobeDelay) a.strobeWidth
        else c.strobe }) s

/-- One eject request (R72): EJECT is raised, or its width restarted, and the eject count rises by one. -/
def ejectRequest (s : State) : State :=
  let e := s.trgu.eject
  s.setEject { e with upTo := some (stampPlus s.stamp (e.width * perMicro)), count := e.count + 1 }

/-! ## Shot fire (R62, R63) -/

/-- Why a shot misses on the state of its port (R62). -/
def portRefusal : PortState → Option MissReason
  | .disabled => some .cameraLost
  | .unlocked => some .cameraLost
  | .idle => none
  | .armed => some .cameraBusy
  | .receiving => some .cameraBusy
  | .draining => some .cameraBusy

/-- The fire stage of channel `n` (R62): the port is examined, and then a record is asked for. -/
def requestShot (n : Unit8) (item : Nat) (pos : Pos) (filling : Bool) (s : State) : Except MissReason Handle × State :=
  match portRefusal (s.port n).state with
  | some r => (.error r, s)
  | none =>
    match allocRecord n item pos filling s with
    | (none, s1) => (.error .storeFull, s1)
    | (some h, s1) => (.ok h, s1)

/-- The shadow is copied into the active settings and the fired count rises (R53, R58, R62, R63). -/
def loadShadow (n : Unit8) (s : State) : State :=
  modChan n (fun c => { c with active := c.shadow, fired := c.fired + 1 }) s

/-- The skip count of channel `n` rises by one. -/
def countSkip (n : Unit8) (s : State) : State := modChan n (fun c => { c with skipped := c.skipped + 1 }) s

/-- The port takes the handle as its current frame and becomes ARMED, and the frame window timer starts (R81). -/
def armPort (n : Unit8) (h : Handle) (s : State) : State :=
  modPort n (fun p => { p with
    state := .armed, current := some h, windowEnd := some (stampPlus s.stamp (p.frameWindow * perMicro)) }) s

/-- An AREA pulse given: the shadow copied, the pulse started, the port ARMED (R58, R62, R81). -/
def fireArea (n : Unit8) (h : Handle) (s : State) : State := armPort n h (startPulse n (loadShadow n s))

/-- A queued shot that misses at its position: the report, the skip count, and MISSED_SHOT in both views (R62). The rule gives
these no order: the model reports first, so an ITEM_READY goes ahead of a NOTICE (log entry 22). -/
def missShot (n : Unit8) (item : Nat) (r : MissReason) (s : State) : State :=
  setBoth .missedShot (countSkip n (report item n (.missed r) s))

/-- An AREA_SHOT taken at its position (R62). -/
def takeAreaShot (n : Unit8) (item : Nat) (pos : Pos) (s : State) : State :=
  match requestShot n item pos false s with
  | (.error r, s1) => missShot n item r s1
  | (.ok h, s1) => report item n (.fired h) (fireArea n h s1)

/-- The close of an item that stands in a shot queue. -/
def queuedClose (item : Nat) (q : List ShotEntry) : Option ShotEntry :=
  q.find? fun e => decide (e.item = item) && decide (e.kind = .windowClose)

/-- A WINDOW_OPEN taken at its position (R63, R92, R98). Its first line trigger is taken by `takeLineTrigger` at the same
count event. Where an older window is still open over an IDLE port, the one record is written anew and the older window's close
is dropped, which no rule says (log entry 26). -/
def takeOpen (n : Unit8) (item : Nat) (pos : Pos) (s : State) : State :=
  match requestShot n item pos true s with
  | (.error r, s1) =>
    missShot n item r (modChan n (fun c => { c with
      queue := c.queue.filter fun e => !(decide (e.item = item) && decide (e.kind = .windowClose)) }) s1)
  | (.ok h, s1) =>
    let s2 := modPort n (fun p => { p with
      state := .receiving, current := some h, counters := { p.counters with started := p.counters.started + 1 } })
      (loadShadow n s1)
    let s3 := report item n (.fired h) (beginContext n h s2)
    modChan n (fun c => { c with window := some {
      item := item, handle := h, nextLine := pos
      close := (queuedClose item c.queue).map fun e => (e.pos, .queued) } }) s3

/-- One more missing line in a frame, up to 65,535 (R64, R65). -/
def addMissing (h : Handle) (s : State) : State :=
  modRecord h (fun r => { r with missing := min 65535 (r.missing + 1) }) s

/-- The frame of a handle is FILLING. -/
def isFilling (s : State) (h : Handle) : Bool :=
  match recordAt s h with
  | none => false
  | some r => decide (r.state = .filling)

/-- A line trigger at position `p`, when the open window's next line position is `p`, its frame is FILLING, and `p` lies
ahead of no known close (R64). -/
def takeLineTrigger (n : Unit8) (p : Pos) (s : State) : State :=
  match (s.chan n).window with
  | none => s
  | some w =>
    let before := match w.close with
      | none => true
      | some (c, _) => aheadBy 1 c p
    if decide (w.nextLine = p) && isFilling s w.handle && before then
      let s1 := if w.outstanding then addMissing w.handle s else s
      startPulse n (modChan n (fun c => { c with window := some { w with
        outstanding := true, nextLine := posPlus p c.scanPitch } }) s1)
    else s

/-- The close of the open window of channel `n` (R65, R93). -/
def takeClose (n : Unit8) (s : State) : State :=
  match (s.chan n).window with
  | none => s
  | some w =>
    let s1 := if w.outstanding then addMissing w.handle s else s
    let s2 := if decide ((s1.port n).current = some w.handle) && isFilling s1 w.handle then completeFrame n id s1 else s1
    let s3 := modPort n (fun p => { p with
      state := if p.state = .receiving ∨ p.state = .draining then .idle else p.state }) s2
    settleChannel n (modChan n (fun c => { c with window := none }) s3)

/-! ## Free-running targets (R58) -/

/-- A loose target of channel `n` at position `p` (R58). -/
def takeLooseTarget (n : Unit8) (p : Pos) (s : State) : State :=
  match (s.chan n).freeRun with
  | none => s
  | some t =>
    if decide ((s.chan n).state = .running) && decide (t.next = p) then
      let left := t.remaining.map fun k => k - 1
      let s1 := modChan n (fun c => { c with freeRun := some { t with
        last := some p, next := posPlus p t.pitch, remaining := left } }) s
      let s2 :=
        if (s1.port n).kind = .scan then countSkip n s1
        else
          match requestShot n 0 p false s1 with
          | (.error _, s2) => countSkip n s2
          | (.ok h, s2) => fireArea n h s2
      settleChannel n (if left = some 0 then modChan n (fun c => { c with state := .halting }) s2 else s2)
    else s

/-! ## Shot queues (R59 to R61) -/

/-- The load of a channel: its entries, one for each WINDOW_OPEN whose close is not queued, and one for an open window
whose close is not known (R59). -/
def load (c : Channel) : Nat :=
  c.queue.length +
    (c.queue.countP fun e => decide (e.kind = .windowOpen) && (queuedClose e.item c.queue).isNone) +
    (match c.window with
      | some w => if w.close.isNone then 1 else 0
      | none => 0)

/-- An entry placed in order: after every entry whose position is not ahead of its own, but a WINDOW_CLOSE before any
WINDOW_OPEN at its position (R59, R60 case 5). -/
def placeEntry (e : ShotEntry) : List ShotEntry → List ShotEntry
  | [] => [e]
  | x :: t =>
    if aheadBy 1 x.pos e.pos then e :: x :: t
    else if e.kind = .windowClose ∧ x.kind = .windowOpen ∧ x.pos = e.pos then e :: x :: t
    else x :: placeEntry e t

/-- The entry queued on channel `n`. -/
def queueEntry (n : Unit8) (e : ShotEntry) (s : State) : State :=
  modChan n (fun c => { c with queue := placeEntry e c.queue }) s

/-- A shot that misses when it is scheduled (R60 cases 1 and 2), while its item is being created. -/
def missSchedule (n : Unit8) (item : Nat) (r : MissReason) (s : State) : State :=
  setBoth .missedShot (countSkip n (reportAtCreation item n (.missed r) s))

/-- An AREA_SHOT or WINDOW_OPEN scheduled for an item being created (R60). -/
def scheduleShot (n : Unit8) (item : Nat) (pos : Pos) (kind : ShotKind) (s : State) : State :=
  if passed pos s.posu.position then missSchedule n item .tooLate s
  else if (if kind = .areaShot then 16 else 15) ≤ load (s.chan n) then missSchedule n item .queueFull s
  else queueEntry n { item := item, pos := pos, kind := kind } s

/-- A WINDOW_CLOSE scheduled for an item (R60). -/
def scheduleClose (n : Unit8) (item : Nat) (pos : Pos) (s : State) : State :=
  match (s.chan n).window with
  | some w =>
    if w.item = item then
      if passed pos s.posu.position then takeClose n s
      else modChan n (fun c => { c with window := some { w with close := some (pos, .held) } }) s
    else queueCloseIfOpen
  | none => queueCloseIfOpen
where
  /-- Queued behind the item's WINDOW_OPEN, or dropped where there is none (R60 cases 4 and 5). -/
  queueCloseIfOpen : State :=
    if (s.chan n).queue.any fun e => decide (e.item = item) && decide (e.kind = .windowOpen) then
      queueEntry n { item := item, pos := pos, kind := .windowClose } s
    else s

/-- An item's entries leave the queue of channel `n`, and a known close of its open window is detached (R61, R139). -/
def dropEntries (item : Nat) (n : Unit8) (s : State) : State :=
  settleChannel n (modChan n (fun c => { c with
    queue := c.queue.filter fun e => decide (e.item ≠ item)
    window := c.window.map fun w =>
      if w.item = item then { w with close := w.close.map fun k => (k.1, .detached) } else w }) s)

/-- The item's window is open on channel `n` with no close known (R61). -/
def openEnded (s : State) (item : Nat) (n : Unit8) : Bool :=
  match (s.chan n).window with
  | none => false
  | some w => decide (w.item = item) && w.close.isNone

/-- An item leaves the shot queues (R61, R139 step 2): its entries are removed, known closes are detached, and a window
whose close is not known is closed at once. -/
def leaveQueues (item : Nat) (s : State) : State :=
  let s1 := units.foldl (fun s n => dropEntries item n s) s
  forEachFree (units.filter (openEnded s1 item)) (fun n s => takeClose n s) s1

/-! ## Count events (R62) -/

/-- The head entry of a shot queue taken (R62, R63, R65). -/
def takeEntry (n : Unit8) (e : ShotEntry) (s : State) : State :=
  match e.kind with
  | .areaShot => takeAreaShot n e.item e.pos s
  | .windowOpen => takeOpen n e.item e.pos s
  | .windowClose => takeClose n s

/-- The entries at position `p` at the head of a queue, taken in queue order (R62); `k` bounds their number. -/
def takeHeads (n : Unit8) (p : Pos) : Nat → State → State
  | 0, s => s
  | k + 1, s =>
    match (s.chan n).queue with
    | [] => s
    | e :: t =>
      if e.pos = p then takeHeads n p k (takeEntry n e (modChan n (fun c => { c with queue := t }) s)) else s

/-- The open window holds a close at `p` outside the shot queue (R65). -/
def heldCloseAt (c : Channel) (p : Pos) : Bool :=
  match c.window with
  | none => false
  | some w =>
    match w.close with
    | none => false
    | some (q, home) => decide (q = p) && decide (home ≠ .queued)

/-- What a forward count event that reaches `p` does on channel `n` (R58, R62 to R65, R71). -/
def reachChannel (n : Unit8) (p : Pos) (s : State) : State :=
  let s1 := if heldCloseAt (s.chan n) p then takeClose n s else s
  let s2 := takeHeads n p (s1.chan n).queue.length s1
  settleChannel n (takeLooseTarget n p (takeLineTrigger n p s2))

/-- Channel `n` has something at position `p`. -/
def touches (s : State) (p : Pos) (n : Unit8) : Bool :=
  let c := s.chan n
  heldCloseAt c p || (c.queue.head?.any fun e => decide (e.pos = p)) ||
    (c.window.any fun w => decide (w.nextLine = p)) ||
    (decide (c.state = .running) && c.freeRun.any fun t => decide (t.next = p))

/-! ## Halts (R67 to R70) -/

/-- A soft halt of channel `n` (R68). -/
def softHalt (n : Unit8) (s : State) : State :=
  let c := s.chan n
  if c.state = .running then
    settleChannel n (s.setChan n { c with
      state := .halting, freeRun := if c.plan = .item then c.freeRun else none })
  else s

/-- Removed entries reported MISSED(HALTED), each raising the skip count; a removed close is not reported (R69 step 1). The rule
gives the entries no order: the model goes from the head of the queue to its tail (log entry 22). -/
def reportHalted (n : Unit8) : List ShotEntry → State → State
  | [], s => s
  | e :: t, s =>
    reportHalted n t
      (if e.kind = .windowClose then s else report e.item n (.missed .halted) (countSkip n s))

/-- The port's frame in flight cut short by a hard halt (R69 step 3, R91). -/
def cutFrame (n : Unit8) (s : State) : State :=
  match (s.chan n).window with
  | some w =>
    let s1 := if decide ((s.port n).current = some w.handle) && isFilling s w.handle then truncateFrame n .halted s else s
    modPort n (fun p => { p with
      state := if p.state = .receiving ∨ p.state = .draining then .idle else p.state })
      (modChan n (fun c => { c with window := none }) s1)
  | none =>
    match (s.port n).state with
    | .armed => modPort n (fun p => { p with state := .idle }) (truncateFrame n .halted s)
    | .receiving => modPort n (fun p => { p with state := .draining }) (truncateFrame n .halted s)
    | .disabled => s
    | .idle => s
    | .draining => s
    | .unlocked => s

/-- A hard halt of channel `n` (R69). -/
def hardHalt (n : Unit8) (s : State) : State :=
  if (s.chan n).state = .idle then s
  else
    let q := (s.chan n).queue
    let s1 := reportHalted n q (modChan n (fun c => { c with queue := [] }) s)
    let s2 := cutFrame n (modChan n (fun c => { c with freeRun := none }) s1)
    modChan n (fun c => { c with state := .idle, plan := .off }) s2

/-- STOP's soft halt of the free-running plans (R70). -/
def stopHalt (s : State) : State :=
  units.foldl (fun s n => if (s.chan n).plan = .item then s else softHalt n s) s

/-- Channel `n` is RUNNING an UNTIL plan that names the input (R57). -/
def awaitsEdge (s : State) (input : AuxInput) (n : Unit8) : Bool :=
  let c := s.chan n
  decide (c.state = .running) && decide (c.plan = .untilEdge) &&
    c.freeRun.any fun t => t.stopOn.any fun u => decide (u.1 = input)

/-- The until-mark written, and the channel halted by the action of its plan (R57). -/
def untilHalt (pos : Pos) (stamp : Stamp) (n : Unit8) (s : State) : State :=
  let hard := (s.chan n).freeRun.any fun t => t.stopOn.any fun u => decide (u.2 = .hard)
  let s1 := modChan n (fun c => { c with untilMark := some (pos, stamp) }) s
  if hard then hardHalt n s1 else softHalt n s1

/-- An AUX edge delivered to TRGU (R57). -/
def untilEdge (input : AuxInput) (pos : Pos) (stamp : Stamp) (s : State) : State :=
  forEachFree (units.filter (awaitsEdge s input)) (untilHalt pos stamp) s

end Sys2Proof.Machine
end

