-- ==== Sys2Proof/Machine/Items.lean ====
section
/-! DEFINITION. The item table's events (02_edge_capture_and_the_item_table.md, 07_verdicts_and_ejection.md): items made,
ended, withdrawn and retired, and the blind list. -/

namespace Sys2Proof.Machine

/-- The newest item: the tail of the table. -/
def newest (t : Itab) : Option Item := t.items.getLast?

/-- The item number after `n` (R32). -/
def nextNumberAfter (n : Nat) : Nat := if n = lastNumber then 1 else n + 1

/-- A channel takes part in new items (R51). -/
def takesPart (c : Channel) : Bool := decide (c.plan = .item) && decide (c.state = .running)

/-! ## The blind list (R44, R45) -/

/-- How many counts lie before the one at which a forward-running line reaches `p`. Positions wrap, so a target at the present
position is a whole turn away, and one behind it nearly so (R44 as log entry 28 reads it). -/
def forwardDistance (now p : Pos) : Nat := (p - now - 1).toNat

/-- A position placed in the blind list, after any it equals (R44). -/
def placeBlind (now p : Pos) : List Pos → List Pos
  | [] => [p]
  | q :: t => if forwardDistance now p < forwardDistance now q then p :: q :: t else q :: placeBlind now p t

/-- The blind list in the order a forward-running line reaches it from `now` (R44). -/
def sortBlind (now : Pos) (l : List Pos) : List Pos := l.foldl (fun a p => placeBlind now p a) []

/-- An eject position offered to the blind list by an overflow edge (R44). -/
def offerBlind (p : Pos) (s : State) : State :=
  match s.itab.geometry.blindPolicy with
  | .ignore => s
  | .reject =>
    if s.itab.blind.length < 8 then s.setItab { s.itab with blind := placeBlind s.posu.position p s.itab.blind }
    else setBoth .blindLost (s.setItab { s.itab with blindLost := s.itab.blindLost + 1 })

/-- One eject request for each blind entry that leaves the list (R45, R140). -/
def blindRequests : Nat → State → State
  | 0, s => s
  | n + 1, s => blindRequests n (ejectRequest (s.setItab { s.itab with blindEjects := s.itab.blindEjects + 1 }))

/-- Every blind entry at `p` leaves the list, each with one eject request (R45). -/
def reachBlind (p : Pos) (s : State) : State :=
  blindRequests (s.itab.blind.count p) (s.setItab { s.itab with blind := s.itab.blind.filter fun q => q != p })

/-! ## Leaving the table (R43, R137 to R145) -/

/-- The final verdict of an item and its source (R139 step 1). -/
def finalVerdict (g : Geometry) (it : Item) : Verdict × VerdictSource :=
  match it.lineOverride, it.officeVerdict with
  | some v, _ => (v, .line)
  | none, some v => (v, .office)
  | none, none => (g.defaultVerdict, .default)

/-- The retirement count of a pair raised by one (R139 step 9). -/
def RetirementCounts.raise (c : RetirementCounts) : Verdict → VerdictSource → RetirementCounts
  | .pass, .line => { c with passLine := c.passLine + 1 }
  | .pass, .office => { c with passOffice := c.passOffice + 1 }
  | .pass, .default => { c with passDefault := c.passDefault + 1 }
  | .reject, .line => { c with rejectLine := c.rejectLine + 1 }
  | .reject, .office => { c with rejectOffice := c.rejectOffice + 1 }
  | .reject, .default => { c with rejectDefault := c.rejectDefault + 1 }

/-- An item leaves the table; the others keep their order (R31). -/
def removeItem (n : Nat) (s : State) : State :=
  s.setItab { s.itab with items := s.itab.items.filter fun it => it.number != n }

/-- The auto-full policy applied to records that have just taken a verdict copy (R139 step 6, R143). -/
def applyPolicies (handles : List Handle) (s : State) : State :=
  forEachFree (handles.filter (autoDue s false)) (applyAutoFull false) s

/-- The retirement of an item (R139), with the stamp of the event at which it is taken; for an item retired at its creation by
R138 that event is the acceptance of its leading edge (log entry 27). -/
def retireItem (it : Item) (s : State) : State :=
  let (v, src) := finalVerdict s.itab.geometry it
  let s2 := leaveQueues it.number s
  let s3 := removeItem it.number s2
  let s4 := if v = .reject then ejectRequest s3 else s3
  let named := recordsNaming it.number s4
  let s5 := writeCopies it.number v.copy src (s4.fwd.holdRejected && decide (v = .reject)) s4
  let s6 := applyPolicies named s5
  let s7 := queueMessage 0x02 (itemRetiredBody it v.copy src it.ejectAt s.stamp) s6
  let s8 := if src = .default then setOffice .defaultApplied s7 else s7
  s8.setItab { s8.itab with
    retired := s8.itab.retired.raise v src
    lastRetirement := some { number := it.number, verdict := v, source := src, position := it.ejectAt, stamp := s.stamp } }

/-- The withdrawal of a live item (R43, R144, R146). -/
def withdraw (it : Item) (s : State) : State :=
  let s1 := removeItem it.number (leaveQueues it.number s)
  let s2 := writeCopies it.number .withdrawn .line false s1
  let s3 := queueMessage 0x02 (itemRetiredBody it .withdrawn .line it.ejectAt s.stamp) s2
  s3.setItab { s3.itab with withdrawn := s3.itab.withdrawn + 1 }

/-! ## The end of an item (R37, R38) -/

/-- A shot entry whose window may need a close (R37 case 2). -/
def Shot.wantsClose : Shot → Bool
  | .pending => true
  | .fired _ => true
  | .taken _ => true
  | .none => false
  | .missed _ => false

/-- The close of an item asked for on a SCAN channel whose entry wants one (R37). -/
def askClose (n : Nat) (e : Pos) (s : State) (ch : Unit8) : State :=
  match findItem s n with
  | none => s
  | some it =>
    if decide ((s.port ch).kind = .scan) && it.shots[ch].wantsClose then
      scheduleClose ch n (posPlus e (s.chan ch).offset) s
    else s

/-- An ENTERING item gets its end and becomes TRACKED, its closes are asked for, and it may be complete (R37, R38, R40). The
rules order the closes of several channels nowhere: the model asks for them from channel 0 to 7 (log entry 22). -/
def endItem (n : Nat) (e : Pos) (long : Bool) (s : State) : State :=
  let s1 := modItem n (fun it => { it with
    endPos := some e, state := .tracked, flags := if long then { it.flags with long := true } else it.flags }) s
  completeIfSettled n (units.foldl (askClose n e) s1)

/-- The end that a trailing edge at `q` gives an item (R37 case 2). -/
def trailingEnd (maxLength : Nat) (start q : Pos) : Pos :=
  if aheadBy 1 q start then
    if (q - start).toNat ≤ maxLength then q else posPlus start maxLength
  else posPlus start 1

/-- A trailing ITEM edge (R37). -/
def trailingEdge (q : Pos) (s : State) : State :=
  if s.itab.suppression then s.setItab { s.itab with suppression := false }
  else
    match newest s.itab with
    | none => s
    | some it =>
      if it.state = .entering then
        endItem it.number (trailingEnd s.itab.geometry.maxLength it.start q) false s
      else s

/-- The forced end of the ENTERING item (R38). -/
def forcedEnd (it : Item) (s : State) : State :=
  endItem it.number (posPlus it.start s.itab.geometry.maxLength) true s

/-! ## Items made (R34, R35, R41) -/

/-- The item's entry of one channel set, and its shots asked for (R35, R41). -/
def enterChannel (it : Item) (s : State) (ch : Unit8) : State :=
  if takesPart (s.chan ch) then
    let s1 := modItem it.number (fun i => { i with shots := i.shots.set ch .pending }) s
    let offset := (s.chan ch).offset
    match (s.port ch).kind with
    | .area => scheduleShot ch it.number (posPlus it.start offset) .areaShot s1
    | .scan =>
      let s2 := scheduleShot ch it.number (posPlus it.start offset) .windowOpen s1
      match it.endPos with
      | none => s2
      | some e => scheduleClose ch it.number (posPlus e offset) s2
  else s

/-- A new item appended with the next number, and its shot entries set from channel 0 to 7 (R32, R35, R41). -/
def appendItem (it : Item) (s : State) : State :=
  let t := s.itab
  let s1 := s.setItab { t with
    items := t.items ++ [it]
    nextNumber := nextNumberAfter t.nextNumber
    assigned := min 8388608 (t.assigned + 1) }
  units.foldl (enterChannel it) s1

/-- A sensor item with its leading edge at `p` (R35). -/
def sensorItem (t : Itab) (p : Pos) : Item :=
  { number := t.nextNumber, origin := .sensor, state := .entering, start := p, endPos := none
    ejectAt := posPlus p t.geometry.ejectDistance }

/-- An item made from a leading edge (R35): retired at once where its eject position has been reached (R138), and ended at
once where its greatest length has (R35). A retirement leaves no item to end (log entry 10). -/
def createFromEdge (p : Pos) (s : State) : State :=
  let it := sensorItem s.itab p
  let s1 := appendItem it s
  match findItem s1 it.number with
  | none => s1
  | some it1 =>
    if passed it1.ejectAt s1.posu.position then retireItem it1 s1
    else if passed (posPlus p s1.itab.geometry.maxLength) s1.posu.position then forcedEnd it1 s1
    else s1

/-- The newest item refuses a leading edge at `p` (R34 case 1). -/
def refusesEdge (t : Itab) (p : Pos) : Bool :=
  match newest t with
  | none => false
  | some it =>
    decide (it.state = .entering) || !aheadBy t.geometry.minGap p it.start || it.endPos.any fun e => behind p e

/-- A leading ITEM edge (R34). -/
def leadingEdge (p : Pos) (s : State) : State :=
  let t := { s.itab with suppression := false }
  if refusesEdge t p then s.setItab { t with refusedEdges := t.refusedEdges + 1, suppression := true }
  else if 64 ≤ t.items.length then
    offerBlind (posPlus p t.geometry.ejectDistance)
      (setBoth .itemOverflow (s.setItab { t with overflowEdges := t.overflowEdges + 1, suppression := true }))
  else createFromEdge p (s.setItab t)

/-- The least offset among the channels that take part in new items (R41). -/
def leastOffset (s : State) : Option Nat :=
  ((units.filter fun n => takesPart (s.chan n)).map fun n => (s.chan n).offset).min?

/-- The first shot position of a declared item (R41). -/
def firstShot (s : State) (start : Pos) : Pos :=
  posPlus start ((leastOffset s).getD s.itab.geometry.ejectDistance)

/-- A declared item (R41). -/
def declaredItem (t : Itab) (start : Pos) (length : Nat) (tag : Option (BitVec 32)) : Item :=
  { number := t.nextNumber, origin := .declared, state := .tracked, start := start, endPos := some (posPlus start length)
    ejectAt := posPlus start t.geometry.ejectDistance, tag := tag }

/-- An item made from a declaration (R41). -/
def createDeclared (it : Item) (s : State) : State := completeIfSettled it.number (appendItem it s)

/-- The first case of R41 that turns a declaration away, or none. -/
def declareRefusal (s : State) (start : Pos) (length : Nat) : Option Result :=
  let g := s.itab.geometry
  if length = 0 ∨ g.maxLength < length then some .badArg
  else if (newest s.itab).any fun it => decide (it.state = .entering) then some .busy
  else if (newest s.itab).any fun it => !aheadBy g.minGap start it.start || it.endPos.any fun e => behind start e then
    some .outOfOrder
  else if passed (firstShot s start) s.posu.position then some .tooLate
  else if 64 ≤ s.itab.items.length then some .tableFull
  else none

/-! ## Count events (R38, R137) -/

/-- The forced end reached at `p` (R38). -/
def reachForcedEnd (p : Pos) (s : State) : State :=
  match newest s.itab with
  | none => s
  | some it =>
    if decide (it.state = .entering) && decide (posPlus it.start s.itab.geometry.maxLength = p) then forcedEnd it s else s

/-- The eject position of the oldest item reached at `p` (R137). -/
def reachEject (p : Pos) (s : State) : State :=
  match s.itab.items.head? with
  | none => s
  | some it => if it.ejectAt = p then retireItem it s else s

end Sys2Proof.Machine
end

