-- ==== Sys2Proof/Machine/Position.lean ====
section
/-! DEFINITION. The Position Unit's events (01_line_position.md): decoding, qualification, count events, the speed meter,
the source monitor and failover, and STOP. -/

namespace Sys2Proof.Machine

/-! ## The end of a switch (R12) -/

/-- A pending switch ends: it is cleared, its record is written and its notice is set (R12). -/
def endSwitch (o : SwitchOutcome) (s : State) : State :=
  match s.posu.pendingSwitch with
  | none => s
  | some p =>
    setLine (if o = .done then .switchDone else .switchFailed) (s.setPosu { s.posu with
      pendingSwitch := none
      lastSwitch := some { target := p.target, outcome := o, stamp := s.stamp } })

/-- The synthetic speed written; the generator restarts its interval where the speed changes (R4, log entry 11). -/
def setSpeedTo (v : Nat) (s : State) : State :=
  s.setPosu { s.posu with synthSpeed := v, genPhase := if v = s.posu.synthSpeed then s.posu.genPhase else 0 }

/-! ## Failover (R16) -/

/-- The speed loaded at a failover from the reference speed (R16 step 2). -/
def holdoverSpeed (reference : Int) : Nat := min 4000000 reference.toNat

/-- A failover on the running monitor `m` (R16). -/
def failover (cause : FailCause) (m : Monitor) (s : State) : State :=
  let v := holdoverSpeed m.reference
  let s1 := endSwitch .cancelledByFailover
    (s.setPosu { s.posu with active := .synth, synthSpeed := v, genPhase := 0 })
  setBoth .sourceFail (s1.setPosu { s1.posu with
    monitor := none
    lastFailover := some { source := s.posu.active, cause := cause, stamp := s.stamp, speed := v } })

/-- SILENCE_WINDOW passes after the last count (R14). -/
def silenceEnd (s : State) (m : Monitor) : Stamp := stampPlus m.lastCount (s.posu.settings.silenceWindow * perMilli)

/-- The silence test of R14 can be met: the monitor runs with a reference speed of at least 100. -/
def silenceArmed (s : State) : Option Monitor := s.posu.monitor.filter fun m => decide (100 ≤ m.reference)

/-! ## Count events (R1) -/

/-- The things a forward count event may do, which the spec orders nowhere (R62, 00_scope 5.8). -/
inductive CountWork where
  | forcedEnd
  | blind
  | eject
  | channel (n : Unit8)
  deriving DecidableEq, Repr

/-- A count event that reaches `p` has this work to do. -/
def hasWork (s : State) (p : Pos) : CountWork → Bool
  | .forcedEnd => (newest s.itab).any fun it =>
      decide (it.state = .entering) && decide (posPlus it.start s.itab.geometry.maxLength = p)
  | .blind => s.itab.blind.contains p
  | .eject => s.itab.items.head?.any fun it => decide (it.ejectAt = p)
  | .channel n => touches s p n

/-- One work of a count event that reaches `p` (R38, R45, R137, R62). -/
def doWork (p : Pos) (w : CountWork) (s : State) : State :=
  match w with
  | .forcedEnd => reachForcedEnd p s
  | .blind => reachBlind p s
  | .eject => reachEject p s
  | .channel n => reachChannel n p s

/-- Every work there may be. -/
def allWork : List CountWork := .forcedEnd :: .blind :: .eject :: units.map .channel

/-- A count event (R1, R13): the position moves by one, and a forward count reaches what stands at the new position. A
backward count reaches no target. -/
def countEvent (forward : Bool) (s : State) : State :=
  if forward then
    let p := s.posu.position + 1
    let s1 := s.setPosu { s.posu with position := p, netCounts := s.posu.netCounts + 1 }
    forEachFree (allWork.filter (hasWork s1 p)) (doWork p) s1
  else
    let p := s.posu.position - 1
    let s1 := s.setPosu { s.posu with position := p, netCounts := s.posu.netCounts - 1 }
    s1.setItab { s1.itab with blind := sortBlind p s1.itab.blind }

/-! ## The source monitor (R14, R15) -/

/-- The monitor as a switch to QUAD or STEP starts it (R14); SYNTH has none. -/
def startMonitor (target : Source) (s : State) : Option Monitor :=
  match target with
  | .quad => some { lastCount := s.stamp, reference := s.posu.measuredSpeed, score := 0, tally := 0 }
  | .step => some { lastCount := s.stamp, reference := s.posu.measuredSpeed, score := 0, tally := 0 }
  | .synth => none

/-- A valid count in the tally of QUAD, which works off the fault score (R15). -/
def Monitor.tallied (m : Monitor) : Monitor :=
  if m.tally + 1 = 1024 then { m with tally := 0, score := m.score - 1 } else { m with tally := m.tally + 1 }

/-- The monitor at a count of the active source (R14, R15). -/
def monitorCount (src : Source) (s : State) : State :=
  s.setPosu { s.posu with monitor := s.posu.monitor.map fun m =>
    let m1 := { m with lastCount := s.stamp, reference := s.posu.measuredSpeed }
    if src = .quad then m1.tallied else m1 }

/-! ## Qualification (R9, R10) -/

/-- The pending switch is QUALIFIED (section 1.5). -/
def qualified (s : State) (p : PendingSwitch) : Bool := decide (s.posu.settings.qualCount ≤ p.count)

/-- The completing count of a qualified switch (R10). -/
def completeSwitch (target : Source) (forward : Bool) (s : State) : State :=
  let s1 := endSwitch .done s
  countEvent forward (s1.setPosu { s1.posu with active := target, monitor := startMonitor target s1 })

/-- A count of the pending switch's target (R9, R10). -/
def qualifyCount (p : PendingSwitch) (forward : Bool) (s : State) : State :=
  if qualified s p then completeSwitch p.target forward s
  else s.setPosu { s.posu with pendingSwitch := some { p with count := if forward then p.count + 1 else 0 } }

/-- A count of a source: the active source's moves the position, a pending target's qualifies it, and any other is
discarded (R1, R2, R3, R4, R9). -/
def sourceCount (src : Source) (forward : Bool) (s : State) : State :=
  if s.posu.active = src then countEvent forward (monitorCount src s)
  else
    match s.posu.pendingSwitch with
    | none => s
    | some p => if p.target = src then qualifyCount p forward s else s

/-- A quadrature fault (R2, R9, R15). -/
def quadFault (s : State) : State :=
  if s.posu.active = .quad then
    match s.posu.monitor with
    | none => s
    | some m =>
      let m1 := { m with score := m.score + 1 }
      if s.posu.settings.faultLimit ≤ m1.score then failover .faultBurst m1 s
      else s.setPosu { s.posu with monitor := some m1 }
  else
    match s.posu.pendingSwitch with
    | none => s
    | some p =>
      if p.target = .quad then s.setPosu { s.posu with pendingSwitch := some { p with count := 0 } } else s

/-! ## Decoding (R2, R3) -/

/-- The place of a pair of levels in the sequence 00, 10, 11, 01 (R2). -/
def quadPlace : Bool → Bool → Nat
  | false, false => 0
  | true, false => 1
  | true, true => 2
  | false, true => 3

/-- What the decoder makes of a change of levels. -/
inductive QuadStep where
  | still
  | count (forward : Bool)
  | fault
  deriving DecidableEq, Repr

/-- The QUAD decoder (R2): one place on is forward and one place back is backward under NORMAL, exchanged under REVERSE. -/
def quadDecode (sense : Sense) (a0 b0 a1 b1 : Bool) : QuadStep :=
  match (quadPlace a1 b1 + 4 - quadPlace a0 b0) % 4 with
  | 0 => .still
  | 1 => .count (decide (sense = .normal))
  | 2 => .fault
  | _ => .count (decide (sense = .reverse))

/-- An edge on ENC_A or ENC_B brings the levels to `a` and `b` (R2). -/
def takeQuadEdge (a b : Bool) (s : State) : State :=
  let s1 := { s with pins := { s.pins with encA := a, encB := b } }
  if inReset s then s1
  else
    match quadDecode s.posu.settings.quadSense s.pins.encA s.pins.encB a b with
    | .still => s1
    | .count forward => sourceCount .quad forward s1
    | .fault => quadFault s1

/-- A rising edge of STEP with DIR at the level given (R3). -/
def takeStepEdge (dirHigh : Bool) (s : State) : State :=
  if inReset s then s
  else sourceCount .step (decide (s.posu.settings.stepSense = .normal) == dirHigh) s

/-! ## Timers of POSU (R4, R11, R13, R14) -/

/-- One count of the rate generator, in units of its phase (R4). -/
def generatorInterval : Nat := 100000000

/-- Stamp units until the generator's next count; none at speed 0 (R4). -/
def generatorWait (p : Posu) : Option Nat :=
  if p.synthSpeed = 0 then none
  else some ((generatorInterval - p.genPhase + p.synthSpeed - 1) / p.synthSpeed)

/-- The generator's interval ends and it produces a forward count (R4). -/
def takeGeneratorCount (s : State) : State :=
  if inReset s then s
  else
    match generatorWait s.posu with
    | none => s
    | some n =>
      let s1 := if n = 0 then s else elapse n s
      sourceCount .synth true (s1.setPosu { s1.posu with genPhase := s1.posu.genPhase - generatorInterval })

/-- The deadline of the pending switch passes (R11). -/
def takeSwitchDeadline (s : State) : State :=
  match s.posu.pendingSwitch.bind (·.deadline) with
  | none => s
  | some t => if inReset s then s else endSwitch .timedOut (reachTime t s)

/-- SILENCE_WINDOW passes with no count of the active source (R14). -/
def takeSilenceExpiry (s : State) : State :=
  match silenceArmed s with
  | none => s
  | some m => if inReset s then s else failover .silence m (reachTime (silenceEnd s m) s)

/-- A 1 ms interval ends (R13). -/
def takeIntervalEnd (s : State) : State :=
  if inReset s then s
  else
    let s1 := reachTime s.posu.intervalEnd s
    let kept := s1.posu.netCounts :: s1.posu.intervals.take 7
    s1.setPosu { s1.posu with
      intervals := kept, netCounts := 0, intervalEnd := stampPlus s1.posu.intervalEnd perMilli
      measuredSpeed := 125 * kept.sum }

/-! ## STOP (R18, R70) -/

/-- An accepted assertion of STOP: POSU's share (R18) and TRGU's (R70). -/
def stopAsserted (s : State) : State :=
  stopHalt (setBoth .stop (endSwitch .cancelledByStop (setSpeedTo 0 s)))

/-! ## The straps (R20) -/

/-- POSU at the end of a device reset, by the straps (R20). -/
def strapped (psel1 psel0 : Bool) (p : Posu) : Posu :=
  match psel1, psel0 with
  | false, false => p
  | false, true => { p with pendingSwitch := some { target := .quad, count := 0, deadline := none } }
  | true, false => { p with pendingSwitch := some { target := .step, count := 0, deadline := none } }
  | true, true => { p with
      pendingSwitch := some { target := .quad, count := 0, deadline := none }
      settings := { p.settings with quadSense := .reverse } }

end Sys2Proof.Machine
end

