-- ==== Sys2Proof/Machine/Capture.lean ====
section
/-! DEFINITION. The Capture Unit's events (02_edge_capture_and_the_item_table.md, 2.1 to 2.3): filters, the classifier and
the aux FIFO. -/

namespace Sys2Proof.Machine

/-- The unit of a capture input. -/
def Capu.input (c : Capu) : CaptureInput → InputUnit
  | .item => c.item
  | .aux1 => c.aux1
  | .aux2 => c.aux2
  | .stop => c.stop

/-- The unit of a capture input replaced. -/
def Capu.setInput (c : Capu) (i : CaptureInput) (u : InputUnit) : Capu :=
  match i with
  | .item => { c with item := u }
  | .aux1 => { c with aux1 := u }
  | .aux2 => { c with aux2 := u }
  | .stop => { c with stop := u }

/-- The level on a capture pin. -/
def Pins.level (p : Pins) : CaptureInput → Level
  | .item => p.item
  | .aux1 => p.aux1
  | .aux2 => p.aux2
  | .stop => p.stop

/-- A capture pin at a level. -/
def Pins.setLevel (p : Pins) (i : CaptureInput) (l : Level) : Pins :=
  match i with
  | .item => { p with item := l }
  | .aux1 => { p with aux1 := l }
  | .aux2 => { p with aux2 := l }
  | .stop => { p with stop := l }

/-- The state with the unit of an input changed. -/
def modInput (i : CaptureInput) (f : InputUnit → InputUnit) (s : State) : State :=
  s.setCapu (s.capu.setInput i (f (s.capu.input i)))

/-- The direction of an accepted edge: LOW to HIGH is a rise (R24). -/
def edgeTo : Level → Edge
  | .high => .rise
  | .low => .fall

/-- An edge selection takes an edge (R24). -/
def EdgeSelection.selects : EdgeSelection → Edge → Bool
  | .rise, .rise => true
  | .rise, .fall => false
  | .fall, .rise => false
  | .fall, .fall => true
  | .both, _ => true
  | .off, _ => false

/-- A record offered to the aux FIFO (R27). -/
def offerCapture (r : CaptureRecord) (s : State) : State :=
  if s.capu.fifo.length < 16 then s.setCapu { s.capu with fifo := s.capu.fifo ++ [r] }
  else setLine .captureOverflow (s.setCapu { s.capu with dropped := min 65535 (s.capu.dropped + 1) })

/-- A selected AUX edge by its input's role (R26). -/
def auxEdge (a : AuxInput) (role : Role) (e : Edge) (pos : Pos) (stamp : Stamp) (s : State) : State :=
  let record : CaptureRecord := { input := a, edge := e, position := pos, stamp := stamp }
  match role with
  | .capture => offerCapture record s
  | .untilEdge => untilEdge a pos stamp s
  | .both => untilEdge a pos stamp (offerCapture record s)

/-- The classifier (R24): a selected edge takes its meaning and is delivered. -/
def classify (i : CaptureInput) (l : Level) (pos : Pos) (stamp : Stamp) (s : State) : State :=
  let u := s.capu.input i
  if u.edges.selects (edgeTo l) then
    match i with
    | .item => if l = u.level then leadingEdge pos s else trailingEdge pos s
    | .stop => if l = u.level then stopAsserted s else s
    | .aux1 => auxEdge .aux1 u.role (edgeTo l) pos stamp s
    | .aux2 => auxEdge .aux2 u.role (edgeTo l) pos stamp s
  else s

/-- An edge is accepted: the filtered level becomes the new level, the pending edge ends, and the edge goes to the
classifier with the position and stamp of the change (R23). -/
def acceptEdge (i : CaptureInput) (l : Level) (pos : Pos) (stamp : Stamp) (s : State) : State :=
  classify i l pos stamp (modInput i (fun u => { u with filtered := l, pendingEdge := none }) s)

/-- A capture pin goes to a level (R23). -/
def takePinChange (i : CaptureInput) (l : Level) (s : State) : State :=
  let s1 := { s with pins := s.pins.setLevel i l }
  if inReset s then s1
  else
    let u := s1.capu.input i
    if l = u.filtered then modInput i (fun u => { u with pendingEdge := none }) s1
    else if u.pendingEdge.isSome then s1
    else if u.filter = 0 then acceptEdge i l s1.posu.position s1.stamp s1
    else modInput i (fun u => { u with pendingEdge := some {
      level := l, position := s1.posu.position, stamp := s1.stamp, due := stampPlus s1.stamp u.filter } }) s1

/-- The filter time of a pending edge passes and the edge is accepted (R23). -/
def takeFilterExpiry (i : CaptureInput) (s : State) : State :=
  match (s.capu.input i).pendingEdge with
  | none => s
  | some e => if inReset s then s else acceptEdge i e.level e.position e.stamp (reachTime e.due s)

/-- CAPU at the end of a device reset: each filtered level is its pin's (R23, R30). -/
def Capu.sampled (c : Capu) (p : Pins) : Capu :=
  { c with
    item := { c.item with filtered := p.item }, aux1 := { c.aux1 with filtered := p.aux1 }
    aux2 := { c.aux2 with filtered := p.aux2 }, stop := { c.stop with filtered := p.stop } }

end Sys2Proof.Machine
end

