-- ==== Sys2Proof/Machine/Camera.lean ====
section
/-! DEFINITION. Camera events (04_camera_ports.md) and the ends of the output pulses (R66, R72). -/

namespace Sys2Proof.Machine

/-- The receiver of a port delivers a word: the part is out of reset and the receiver has lock (R77). -/
def delivers (n : Unit8) (s : State) : Bool := !inReset s && s.locked n

/-- The counter gap check (R83). -/
def gapCheck (n : Unit8) (counter : BitVec 16) (s : State) : State :=
  modPort n (fun p => { p with
    lastCounter := some counter
    counters := if p.lastCounter.any fun c => c + 1 != counter then { p.counters with gaps := p.counters.gaps + 1 }
      else p.counters }) s

/-- A port's state changed, and rest reported to its channel (R76, R71). -/
def settleAs (n : Unit8) (st : PortState) (s : State) : State := settleChannel n (modPort n (fun p => { p with state := st }) s)

/-- An unsolicited frame (R82). -/
def unsolicited (n : Unit8) (s : State) : State :=
  modPort n (fun p => { p with
    state := .draining, counters := { p.counters with unsolicited := p.counters.unsolicited + 1 } }) s

/-- The frame of an ARMED port starts (R82). -/
def startFrame (n : Unit8) (counter : BitVec 16) (s : State) : State :=
  match (s.port n).current with
  | none => s
  | some h =>
    let s1 := modRecord h (fun r => { r with state := .filling, cameraCounter := some counter, lines := 0 }) s
    beginContext n h (modPort n (fun p => { p with
      state := .receiving, windowEnd := none, counters := { p.counters with started := p.counters.started + 1 } }) s1)

/-- Lines received of the current frame of a port. -/
def linesReceived (n : Unit8) (s : State) : Nat :=
  match (s.port n).current.bind (recordAt s) with
  | none => 0
  | some r => r.lines

/-- The frame of an AREA port ends as at an FE, SHORT where lines are wanting (R88); `noFe` for one that an FS ends (R82). -/
def endAreaFrame (n : Unit8) (noFe : Bool) (s : State) : State :=
  let short := decide (linesReceived n s < (s.port n).lines)
  completeFrame n (fun f => { f with short := f.short || short, noFe := f.noFe || noFe }) s

/-- FS_WORD (R82, R83, R92). -/
def takeFs (n : Unit8) (counter : BitVec 16) (s : State) : State :=
  if !delivers n s then s
  else
    match (s.port n).kind with
    | .scan => s
    | .area =>
      match (s.port n).state with
      | .disabled => s
      | .unlocked => s
      | .armed => startFrame n counter (gapCheck n counter s)
      | .idle => unsolicited n (gapCheck n counter s)
      | .receiving => unsolicited n (endAreaFrame n true (gapCheck n counter s))
      | .draining => unsolicited n (gapCheck n counter s)

/-- A stray word (R85). -/
def stray (n : Unit8) (s : State) : State := countPort n (fun c => { c with stray := c.stray + 1 }) s

/-- A discarded line (R87, R93). -/
def discardLine (n : Unit8) (s : State) : State := countPort n (fun c => { c with discarded := c.discarded + 1 }) s

/-- An unrequested line (R92, R93). -/
def unrequestedLine (n : Unit8) (s : State) : State :=
  countPort n (fun c => { c with unrequested := c.unrequested + 1 }) s

/-- The outstanding-line flag of the open window of channel `n` cleared (R64). -/
def clearOutstanding (n : Unit8) (s : State) : State :=
  modChan n (fun c => { c with window := c.window.map fun w => { w with outstanding := false } }) s

/-- A line for an AREA port in RECEIVING (R87). -/
def takeAreaLine (n : Unit8) (samples : List Nat) (s : State) : State :=
  if linesReceived n s < (s.port n).lines then (offerLine n samples s).2
  else
    match (s.port n).current with
    | none => s
    | some h => discardLine n (modRecord h (fun r => { r with flags := { r.flags with long := true } }) s)

/-- The most lines of a SCAN frame (R92). -/
def scanLimit : Nat := 16384

/-- A line for a SCAN port in RECEIVING (R91, R92): stored where one is awaited, with the LONG truncation at the limit. -/
def takeScanLine (n : Unit8) (samples : List Nat) (s : State) : State :=
  if (s.chan n).window.any (·.outstanding) then
    let (_, s1) := offerLine n samples s
    let s2 := clearOutstanding n s1
    if scanLimit ≤ linesReceived n s2 then
      modPort n (fun p => { p with state := .draining }) (truncateFrame n .long s2)
    else s2
  else unrequestedLine n s

/-- LN_WORD (R85, R87, R92, R93). Each sample has the configured depth (log entry 20). -/
def takeLn (n : Unit8) (samples : List (BitVec 14)) (s : State) : State :=
  if !delivers n s then s
  else
    let values := samples.map fun x => x.toNat % 2 ^ (s.port n).depth
    match (s.port n).state, (s.port n).kind with
    | .disabled, _ => s
    | .unlocked, _ => s
    | .idle, .area => stray n s
    | .idle, .scan => unrequestedLine n s
    | .armed, _ => stray n s
    | .receiving, .area => takeAreaLine n values s
    | .receiving, .scan => takeScanLine n values s
    | .draining, _ => discardLine n s

/-- FE_WORD (R85, R88, R92). -/
def takeFe (n : Unit8) (s : State) : State :=
  if !delivers n s then s
  else
    match (s.port n).kind with
    | .scan => s
    | .area =>
      match (s.port n).state with
      | .disabled => s
      | .unlocked => s
      | .idle => stray n s
      | .armed => stray n s
      | .receiving => settleAs n .idle (endAreaFrame n false s)
      | .draining => settleAs n .idle s

/-- The record of an expired frame window (R84, R122): the expiry is reported for a live item, the record is freed, and
MISSED_SHOT is set for a frame of an item. -/
def expireRecord (n : Unit8) (h : Handle) (s : State) : State :=
  match recordAt s h with
  | none => s
  | some r =>
    let s1 := if r.live then report r.item n .expired s else s
    let s2 := freeRecord h s1
    if r.item = 0 then s2 else setBoth .missedShot s2

/-- FRAME_WINDOW_EXPIRY (R84). -/
def takeWindowExpiry (n : Unit8) (s : State) : State :=
  if inReset s then s
  else
    match (s.port n).windowEnd, (s.port n).current with
    | some t, some h =>
      let s1 := expireRecord n h (reachTime t s)
      settleAs n .idle (modPort n (fun p => { p with
        current := none, windowEnd := none
        counters := { p.counters with windowExpiries := p.counters.windowExpiries + 1 } }) s1)
    | _, _ => s

/-- The receiver lock flag of port `n` (R77). -/
def setLock (n : Unit8) (b : Bool) (s : State) : State := { s with pins := { s.pins with lock := s.pins.lock.set n b } }

/-- LOCK_GAINED (R77, R90). -/
def takeLockGained (n : Unit8) (s : State) : State :=
  let s1 := setLock n true s
  if inReset s then s1
  else if (s.port n).state = .unlocked then
    settleAs n .idle (modPort n (fun p => { p with lastCounter := none }) s1)
  else s1

/-- A port other than DISABLED and UNLOCKED loses lock (R89). The rule gives the truncation's report and CAMERA_LOST no order: the
model reports first, so an ITEM_READY goes ahead of a NOTICE (log entry 22). -/
def loseLock (n : Unit8) (s : State) : State :=
  let s1 := if (s.port n).current.isSome then clearOutstanding n (truncateFrame n .cameraLost s) else s
  let s2 := modPort n (fun p => { p with
    state := .unlocked, current := none, counters := { p.counters with lockLosses := p.counters.lockLosses + 1 } }) s1
  settleChannel n (setBoth .cameraLost s2)

/-- LOCK_LOST (R77, R89). -/
def takeLockLost (n : Unit8) (s : State) : State :=
  let s1 := setLock n false s
  if inReset s then s1
  else
    match (s.port n).state with
    | .disabled => s1
    | .unlocked => s1
    | .idle => loseLock n s1
    | .armed => loseLock n s1
    | .receiving => loseLock n s1
    | .draining => loseLock n s1

/-! ## Pulse ends (R66, R72) -/

/-- EJECT_WIDTH ends and EJECT goes low (R72). -/
def takeEjectEnd (s : State) : State :=
  match s.trgu.eject.upTo with
  | none => s
  | some t =>
    if inReset s then s
    else
      let s1 := reachTime t s
      s1.setEject { s1.trgu.eject with upTo := none }

/-- The trigger width ends and TRIGn goes low (R66). -/
def takeTriggerEnd (n : Unit8) (s : State) : State :=
  match (s.chan n).trigger with
  | none => s
  | some t => if inReset s then s else modChan n (fun c => { c with trigger := none }) (reachTime t s)

/-- The strobe delay ends and STRBn goes high for the strobe width (R66). -/
def takeStrobeDelayEnd (n : Unit8) (s : State) : State :=
  match (s.chan n).strobe with
  | .delaying t w =>
    if inReset s then s
    else modChan n (fun c => { c with strobe := .high (stampPlus t w) }) (reachTime t s)
  | .low => s
  | .high _ => s

/-- The strobe width ends and STRBn goes low (R66). -/
def takeStrobeEnd (n : Unit8) (s : State) : State :=
  match (s.chan n).strobe with
  | .high t => if inReset s then s else modChan n (fun c => { c with strobe := .low }) (reachTime t s)
  | .low => s
  | .delaying _ _ => s

end Sys2Proof.Machine
end

