-- ==== Sys2Proof/Machine/Forward.lean ====
section
/-! DEFINITION. The Forwarder (09_forwarding.md): the arbiter, transfers, sent reports, and the loss of the link. -/

namespace Sys2Proof.Machine

/-- FWD changed. -/
def modFwd (f : Fwd → Fwd) (s : State) : State := s.setFwd (f s.fwd)

/-- FWD's counters changed (R186). -/
def countFwd (f : ForwardCounters → ForwardCounters) (s : State) : State :=
  modFwd (fun w => { w with counters := f w.counters }) s

/-- The transfer of a lane. -/
def Fwd.lane (f : Fwd) : Part → Option Transfer
  | .full => f.fullLane
  | .preview => f.previewLane

/-- A lane replaced. -/
def Fwd.setLane (f : Fwd) (p : Part) (t : Option Transfer) : Fwd :=
  match p with
  | .full => { f with fullLane := t }
  | .preview => { f with previewLane := t }

/-- The image queue of a part. -/
def Fwd.queue (f : Fwd) : Part → List ImageEntry
  | .full => f.pull
  | .preview => f.preview

/-- An image queue replaced. -/
def Fwd.setQueue (f : Fwd) (p : Part) (q : List ImageEntry) : Fwd :=
  match p with
  | .full => { f with pull := q }
  | .preview => { f with preview := q }

/-- A record whose part is waiting in its queue. -/
def FrameRecord.partQueued (r : FrameRecord) : Part → FrameRecord
  | .full => { r with fullState := .queued }
  | .preview => { r with previewState := .queued }

/-- A record whose part is being sent. -/
def FrameRecord.partSending (r : FrameRecord) : Part → FrameRecord
  | .full => { r with fullState := .sending }
  | .preview => { r with previewState := .sending }

/-- A record whose part has been sent. -/
def FrameRecord.partSent (r : FrameRecord) : Part → FrameRecord
  | .full => { r with fullState := .sent }
  | .preview => { r with previewState := .sent }

/-! ## The arbiter (R173 to R176) -/

/-- A lane has work (R174). -/
def laneWork (f : Fwd) (p : Part) : Bool :=
  match f.lane p with
  | some t => !t.closed && decide (t.next < t.segments)
  | none => !(f.queue p).isEmpty

/-- The lane of an image step, if either has work (R174). -/
def chooseLane (f : Fwd) : Option Part :=
  if laneWork f .preview && (!laneWork f .full || decide (8 ≤ f.fullRun)) then some .preview
  else if laneWork f .full then some .full
  else none

/-- A transfer started from the head of a queue: its TRANSFER_BEGIN is handed over (R175, R184). -/
def beginTransfer (p : Part) (s : State) : Option Transmission × State :=
  match (s.fwd.queue p).head? with
  | none => (none, s)
  | some e =>
    match recordAt s e.handle with
    | none => (none, s)
    | some r =>
      let t : Transfer := { handle := e.handle, segments := segmentCount (r.partBytes p), restart := e.restart }
      (some (.control (messageFrame 0x05 (transferBeginBody e.handle p e.restart r)) false),
        modRecord e.handle (fun r => r.partSending p) (modFwd (fun f => f.setLane p (some t)) s))

/-- The full-run count after a segment of a part (R174). -/
def runAfter (run : Nat) : Part → Nat
  | .full => min 8 (run + 1)
  | .preview => 0

/-- The payload of segment `k` of a part: its bytes from `k` × 8,192 on (R176). -/
def segmentPayload (s : State) (h : Handle) (p : Part) (k : Nat) : List Byte :=
  match recordAt s h with
  | none => []
  | some r => readRun (r.partBlocks p) s.fsto.mem (k * segmentBytes) (min segmentBytes (r.partBytes p - k * segmentBytes))

/-- The next segment of a transfer in flight, or the closing segment of an abandoned one (R176, R180). A closing segment has
LAST clear whatever its number is, where R176 sets LAST on the number segment count - 1 and R180 names ABANDONED alone (log
entry 24). -/
def nextSegment (p : Part) (t : Transfer) (s : State) : Segment :=
  if t.abandoning then
    { handle := t.handle, part := p, last := false, abandoned := true, number := t.next, payload := [] }
  else
    { handle := t.handle, part := p, last := decide (t.next + 1 = t.segments), abandoned := false, number := t.next
      payload := segmentPayload s t.handle p t.next }

/-- A segment handed over: one credit is used and the next segment number rises (R171, R174, R176). -/
def handSegment (p : Part) (t : Transfer) (s : State) : Option Transmission × State :=
  (some (.image (nextSegment p t s)),
    modFwd (fun f => { f.setLane p (some { t with next := t.next + 1, closed := t.abandoning }) with
      credit := f.credit - 1, fullRun := runAfter f.fullRun p }) s)

/-- An image step (R173 case 2). -/
def imageStep (s : State) : Option Transmission × State :=
  match chooseLane s.fwd with
  | none => (none, s)
  | some p =>
    match s.fwd.lane p with
    | none => beginTransfer p s
    | some t => handSegment p t s

/-- A control step: the head entry's frame, or the next frame of its run (R168, R173, R200). -/
def controlStep (e : ControlEntry) (rest : List ControlEntry) (s : State) : Option Transmission × State :=
  match e.frames with
  | [] => (none, s)
  | [f] => (some (.control f e.retrain), modFwd (fun w => { w with control := rest }) s)
  | f :: more => (some (.control f false), modFwd (fun w => { w with control := { e with frames := more } :: rest }) s)

/-- The arbiter's answer to an ask (R173). -/
def arbiter (s : State) : Option Transmission × State :=
  match s.fwd.control with
  | e :: rest => controlStep e rest s
  | [] => if 1 ≤ s.fwd.credit then imageStep s else (none, s)

/-! ## Sent reports (R177) -/

/-- The segments-sent count of a part raised. -/
def ForwardCounters.segmentSent (c : ForwardCounters) : Part → ForwardCounters
  | .full => { c with fullSegments := c.fullSegments + 1 }
  | .preview => { c with previewSegments := c.previewSegments + 1 }

/-- The transfers-completed count of a part raised. -/
def ForwardCounters.transferDone (c : ForwardCounters) : Part → ForwardCounters
  | .full => { c with fullTransfers := c.fullTransfers + 1 }
  | .preview => { c with previewTransfers := c.previewTransfers + 1 }

/-- A lane's transfer is abandoning (R180). -/
def abandoningLane (f : Fwd) (p : Part) : Bool := (f.lane p).any (·.abandoning)

/-- FWD takes the report of a segment sent (R177). -/
def segmentReport (g : Segment) (s : State) : State :=
  let s1 := countFwd (fun c => c.segmentSent g.part) s
  if g.abandoned then
    countFwd (fun c => { c with abandoned := c.abandoned + 1 }) (modFwd (fun f => f.setLane g.part none) s1)
  else if g.last then
    let s2 := countFwd (fun c => c.transferDone g.part) (modFwd (fun f => f.setLane g.part none) s1)
    if abandoningLane s.fwd g.part then s2
    else
      modRecord g.handle (fun r => r.partSent g.part)
        (modFwd (fun f => f.setQueue g.part ((f.queue g.part).filter fun e => e.handle != g.handle)) s2)
  else s1

/-! ## The leaving of UP (R183) -/

/-- A transfer in flight returned to the head of its queue with the restart mark, or ended if abandoning (R183 steps 3
and 4). -/
def returnTransfer (p : Part) (s : State) : State :=
  match s.fwd.lane p with
  | none => s
  | some t =>
    let s1 := modFwd (fun f => f.setLane p none) s
    if t.abandoning then countFwd (fun c => { c with abandoned := c.abandoned + 1 }) s1
    else
      countFwd (fun c => { c with restarted := c.restarted + 1 })
        (modRecord t.handle (fun r => r.partQueued p)
          (modFwd (fun f => f.setQueue p ((f.queue p).map fun e =>
            if e.handle = t.handle then { e with restart := true } else e)) s1))

/-- FWD's share of the leaving of UP (R183). -/
def forwardLoss (s : State) : State :=
  let s1 := modFwd (fun f => { f with
    credit := 0, control := [], reserved := false
    counters := { f.counters with creditDiscarded := f.counters.creditDiscarded + BitVec.ofNat 32 f.credit } }) s
  modFwd (fun f => { f with fullRun := 0 }) (returnTransfer .full (returnTransfer .preview s1))

/-! ## Pulls (R178, R180) -/

/-- A full part that is sending is abandoned (R180). -/
def abandonPull (h : Handle) (s : State) : State :=
  modRecord h (fun r => { r with fullState := .none })
    (modFwd (fun f => { f with
      pull := f.pull.filter fun e => e.handle != h
      fullLane := f.fullLane.map fun t => { t with abandoning := true } }) s)

end Sys2Proof.Machine
end

