-- ==== Sys2Proof/Machine/Link.lean ====
section
/-! DEFINITION. The Fibre Link (08_the_fibre_link.md): link states, the framer, the far state, retraining and the
transmitter. -/

namespace Sys2Proof.Machine

/-- LNK changed. -/
def modLnk (f : Lnk → Lnk) (s : State) : State := s.setLnk (f s.lnk)

/-- LNK's counters changed (R166). -/
def countLnk (f : LinkCounters → LinkCounters) (s : State) : State :=
  modLnk (fun l => { l with counters := f l.counters }) s

/-! ## What the transmitter sends (R152) -/

/-- The echo of an idle frame (R152). -/
def echoOf (l : Lnk) : Option Byte := if l.state = .up then l.far.map (·.epoch) else none

/-- The fill of the stream: break fill during a retrain hold, and otherwise an idle frame that starts now (R152). -/
def fill (l : Lnk) : Transmission :=
  if l.hold.isSome then .breakFill else .idle l.state l.epoch (echoOf l)

/-- The transmitter turns to fill at once. -/
def startFill (s : State) : State := modLnk (fun l => { l with tx := fill l, txSent := 0 }) s

/-- Byte positions of a frame: delimiter, content and CRC (R200). -/
def Transmission.length : Transmission → Nat
  | .silent => 0
  | .breakFill => 0
  | .idle _ _ _ => 64
  | .control f _ => 10 + f.body.length
  | .image g => 13 + g.payload.length

/-- The kind byte of a CONTROL frame: the control kind in bits 0 to 6, and MORE in bit 7 (R200). -/
def ControlFrame.kindByte (f : ControlFrame) : Byte := f.kind.code ||| (if f.more then 0x80 else 0)

/-- The content bytes of a frame: the IDLE table, the CONTROL header and body, and the segment header and payload (R200). -/
def Transmission.content : Transmission → List Byte
  | .silent => []
  | .breakFill => []
  | .idle state epoch echo => [state.code, epoch] ++ optByte echo ++ List.replicate 55 0
  | .control f _ => f.kindByte :: (be 2 f.tag.toNat ++ [f.op] ++ be 1 f.body.length ++ f.body)
  | .image g =>
    handleBytes g.handle ++ [g.part.code, setByte [g.last, g.abandoned]] ++ be 2 g.number ++ be 2 g.payload.length ++
      g.payload

/-- The delimiter of a frame (R200); nothing and break fill have none. -/
def Transmission.delimiter : Transmission → Option Delimiter
  | .silent => none
  | .breakFill => none
  | .idle _ _ _ => some .idle
  | .control _ _ => some .control
  | .image _ => some .image

/-- A frame as it goes out: its delimiter, its content and its CRC (R200). -/
def Transmission.frame (t : Transmission) : Option SentFrame :=
  t.delimiter.map fun d => { delimiter := d, bytes := t.content ++ crcBytes t.content }

/-! ## Entering ALIGNING and leaving UP (R151, R162) -/

/-- The framer stops (R151, R162, R164): hunting, its counts 0, and the frame in reception discarded. -/
def stopFramer (s : State) : State :=
  modLnk (fun l => { l with framer := .hunting, reception := none, alignCount := 0, errorRun := 0 }) s

/-- The entry to ALIGNING (R151). -/
def enterAligning (s : State) : State :=
  modLnk (fun l => { l with state := .aligning, epoch := l.epoch + 1, far := none, farAligned := false }) (stopFramer s)

/-- ALIGNING is entered where the light flag is set and the link is DOWN with no hold (R151). -/
def alignIfLit (s : State) : State :=
  if s.pins.light && decide (s.lnk.state = .down) && s.lnk.hold.isNone then enterAligning s else s

/-- The length of the retrain hold: 100 µs (R164). -/
def retrainHold : Nat := 10000

/-- The retrain hold starts, or starts again (R164). -/
def startHold (s : State) : State := modLnk (fun l => { l with hold := some (stampPlus s.stamp retrainHold) }) s

/-- A frame is going out, of any kind (R152, log entry 12). -/
def cutCount (t : Transmission) : Count := if t.counts then 1 else 0

/-- The link leaves UP (R162). `cutting` is false when the frame going out has just ended (R165). With light the link is in
ALIGNING again at this event (R150, R162), so a loss of light that comes with a fourth delimiter error, and is taken after
it, finds ALIGNING under a new epoch and takes it DOWN, where R156 speaks of a link found DOWN (log entry 23). -/
def leaveUp (cause : DownCause) (cutting : Bool) (s : State) : State :=
  let s1 := modLnk (fun l => { l with
    state := .down, lastDown := some { cause := cause, stamp := s.stamp }, farAligned := false, idleDue := 0
    retrainPending := false
    counters := { l.counters with
      downs := l.counters.downs + 1, cut := l.counters.cut + (if cutting then cutCount l.tx else 0) } }) (stopFramer s)
  let s2 := setLine .linkDown (forwardLoss s1)
  startFill (if cause = .retrain then startHold s2 else alignIfLit s2)

/-! ## Entering UP (R160, R161) -/

/-- The last down record on the wire (R161, R166). -/
def lastDownBytes (d : Option DownRecord) : List Byte := optBytes 7 (d.map fun r => r.cause.code :: stampBytes r.stamp)

/-- The body of STATUS (R161). -/
def statusBody (s : State) : List Byte :=
  countBytes s.lnk.counters.ups ++ stampBytes s.stamp ++ [s.lnk.epoch] ++ lastDownBytes s.lnk.lastDown ++
    noticeBytes s.rnu.officeView ++ noticeBytes s.rnu.officeMask ++ be 2 s.fwd.preview.length ++
    be 1 s.fwd.pull.length ++ be 1 (awaitCount s) ++ be 2 s.fsto.pool.length ++ be 1 s.itab.items.length ++
    itemBytes s.itab.nextNumber

/-- The link enters UP (R160). -/
def enterUp (s : State) : State :=
  let s1 := modLnk (fun l => { l with
    state := .up, errorRun := 0, farAligned := false, counters := { l.counters with ups := l.counters.ups + 1 } }) s
  let s2 := setLine .linkUp s1
  queueMessage 0x03 (statusBody s2) s2

/-! ## The framer (R153 to R156) -/

/-- The framer runs: the part is out of reset and the link is ALIGNING or UP (R150). -/
def framerRuns (s : State) : Bool := !inReset s && decide (s.lnk.state ≠ .down)

/-- A frame dropped that sends the framer hunting; in ALIGNING the alignment count returns to 0 (R153, R155). -/
def dropHunting (s : State) : State :=
  modLnk (fun l => { l with
    framer := .hunting, reception := none, alignCount := if l.state = .aligning then 0 else l.alignCount }) s

/-- A correct delimiter counted (R155, R156). -/
def countCorrect (s : State) : State :=
  match s.lnk.state with
  | .down => s
  | .aligning =>
    let s1 := modLnk (fun l => { l with alignCount := l.alignCount + 1 }) s
    if 16 ≤ s1.lnk.alignCount then enterUp s1 else s1
  | .up => modLnk (fun l => { l with errorRun := 0 }) s

/-- A correct delimiter taken, and the next boundary placed from it (R153); an IMAGE frame is dropped as wrong kind (R157). -/
def correctDelimiter (d : Delimiter) (s : State) : State :=
  let s1 := countCorrect (modLnk (fun l => { l with framer := .framed }) s)
  match d with
  | .idle => modLnk (fun l => { l with reception := some .idle }) s1
  | .control => modLnk (fun l => { l with reception := some .header }) s1
  | .image => dropHunting (countLnk (fun c => { c with wrongKind := c.wrongKind + 1 }) s1)

/-- A delimiter error (R153 to R156). -/
def delimiterError (s : State) : State :=
  let s1 := countLnk (fun c => { c with delimiterErrors := c.delimiterErrors + 1 }) (dropHunting s)
  if s1.lnk.state = .up then
    let s2 := modLnk (fun l => { l with errorRun := l.errorRun + 1 }) s1
    if 4 ≤ s2.lnk.errorRun then leaveUp .delimiterErrors true s2 else s2
  else s1

/-- RECEIVED_DELIMITER (R153, R155, R156). -/
def takeDelimiter (found : Option Delimiter) (s : State) : State :=
  if framerRuns s && decide (s.lnk.framer = .framed) then
    match found with
    | some d => correctDelimiter d s
    | none => delimiterError s
  else s

/-- HUNT_DELIMITER_FOUND (R154). -/
def takeHuntDelimiter (d : Delimiter) (s : State) : State :=
  if framerRuns s && decide (s.lnk.framer = .hunting) then correctDelimiter d s else s

/-- HUNT_SPAN_EXPIRY (R154): 512 bytes pass while hunting in UP. In ALIGNING hunting spans count no errors. -/
def takeHuntSpan (s : State) : State :=
  if framerRuns s && decide (s.lnk.framer = .hunting) && decide (s.lnk.state = .up) then delimiterError s else s

/-- CONTROL_HEADER_RECEIVED (R153, R157). -/
def takeControlHeader (length : Byte) (s : State) : State :=
  if framerRuns s && decide (s.lnk.reception = some .header) then
    if 240 < length.toNat then dropHunting (countLnk (fun c => { c with badLength := c.badLength + 1 }) s)
    else modLnk (fun l => { l with reception := some (.control length.toNat) }) s
  else s

/-! ## The far state (R158) -/

/-- The far state that an idle frame's content carries (R158, R200). The state has two bits and a presence one, and the
bits above them are ignored (R199). The state 3, which R200 does not name, is kept as it came, and is not UP (log
entry 25). -/
def farOf (content : List Byte) : FarState :=
  { state := content.getD 0 0 &&& 3, epoch := content.getD 1 0
    echo := if content.getD 2 0 &&& 1 = 0 then none else some (content.getD 3 0) }

/-- An idle frame with a good CRC (R158). -/
def takeFarState (f : FarState) (s : State) : State :=
  modLnk (fun l => { l with
    far := some f
    farAligned := decide (l.state = .up) && decide (f.state = LinkState.up.code) && decide (f.echo = some l.epoch) }) s

/-! ## Light and retraining (R151, R164) -/

/-- LIGHT_GAINED (R151). -/
def takeLightGained (s : State) : State :=
  let s1 := { s with pins := { s.pins with light := true } }
  if inReset s then s1 else alignIfLit s1

/-- LIGHT_LOST (R151). -/
def takeLightLost (s : State) : State :=
  let s1 := { s with pins := { s.pins with light := false } }
  if inReset s then s1
  else
    match s.lnk.state with
    | .down => s1
    | .aligning => modLnk (fun l => { l with state := .down }) (stopFramer s1)
    | .up => leaveUp .lossOfLight true s1

/-- RETRAIN_LINK from LINE (R164). -/
def retrainNow (s : State) : State :=
  match s.lnk.state with
  | .up => leaveUp .retrain true s
  | .aligning => startFill (startHold (modLnk (fun l => { l with state := .down }) (stopFramer s)))
  | .down => startFill (startHold s)

/-- RETRAIN_HOLD_END (R164). -/
def takeHoldEnd (s : State) : State :=
  match s.lnk.hold with
  | none => s
  | some t =>
    if inReset s then s
    else startFill (alignIfLit (modLnk (fun l => { l with hold := none }) (reachTime t s)))

/-! ## The transmitter (R152) -/

/-- The transmitter takes its next frame: from FWD while the link is UP with the far-aligned flag set and the idle-due
count below 16, and fill otherwise (R152, R159). -/
def nextFrame (s : State) : State :=
  if decide (s.lnk.state = .up) && s.lnk.farAligned && decide (s.lnk.idleDue < 16) then
    match arbiter s with
    | (some t, s1) => modLnk (fun l => { l with tx := t }) s1
    | (none, s1) => modLnk (fun l => { l with tx := fill l }) s1
  else modLnk (fun l => { l with tx := fill l }) s

/-- Stamp units until the last byte of the frame going out has gone, 12 byte positions in each (section 8.3). -/
def sendWait (l : Lnk) : Nat := (l.tx.length - l.txSent + 11) / 12

/-- The retrain of R165 begins as its marked response is sent. -/
def beginRetrain (s : State) : State :=
  if s.lnk.retrainPending then leaveUp .retrain false s else nextFrame s

/-- The frame going out ends: all its bytes have gone out (R200), it is counted and reported, and the transmitter asks for
the next (R152, R165, R177). -/
def frameEnded (s : State) : State :=
  match s.lnk.tx with
  | .silent => s
  | .breakFill => s
  | .idle state epoch echo =>
    nextFrame (modLnk (fun l => { l with idleDue := 0, sent := (Transmission.idle state epoch echo).frame }) s)
  | .control f retrain =>
    let s1 := modLnk (fun l => { l with
      idleDue := l.idleDue + 1, counters := { l.counters with controlSent := l.counters.controlSent + 1 }
      sent := (Transmission.control f retrain).frame }) s
    if retrain then beginRetrain s1 else nextFrame s1
  | .image g =>
    nextFrame (segmentReport g (modLnk (fun l => { l with
      idleDue := l.idleDue + 1, counters := { l.counters with imageSent := l.counters.imageSent + 1 }
      sent := (Transmission.image g).frame }) s))

/-- TRANSMIT_FRAME_END (R152). The next frame begins at this event: of the stamp unit in which the frame ended, no more than
11 byte positions are left to it. -/
def takeFrameEnd (s : State) : State :=
  if inReset s || !s.lnk.tx.counts then s
  else
    let s1 := if sendWait s.lnk = 0 then s else elapse (sendWait s.lnk) s
    frameEnded (modLnk (fun l => { l with txSent := min 11 (l.txSent - l.tx.length) }) s1)

end Sys2Proof.Machine
end

