-- ==== Sys2Proof/Machine/Answers.lean ====
section
/-! DEFINITION. Answers to requests (R188, R189, R199): their bytes, the operations of the command table as data, and the
tests of arguments that several requests share. -/

namespace Sys2Proof.Machine

/-- The bytes of a response: its result code and its data, or none at all for NOP and RESET_DEVICE. -/
abbrev Answer := List Byte

/-- How a block takes a request of a master with its argument bytes: the state after, and the answer. -/
abbrev Handler := Master → List Byte → State → State × Answer

/-- A row of the command table (R192): code, issuers, argument bytes, and the block's rule. -/
structure OpSpec where
  code : Byte
  forLine : Bool
  forOffice : Bool
  argBytes : Nat
  run : Handler

/-- An answer that carries no data. -/
def say (r : Result) : Answer := [r.code]

/-- An answer that carries data. -/
def sayWith (r : Result) (data : List Byte) : Answer := r.code :: data

/-- A read: nothing changes, and the answer is OK with what is sampled now (R189). -/
def readAs (f : State → List Byte) : Handler := fun _ _ s => (s, sayWith .ok (f s))

/-- A read of a port or channel, BAD_ARG outside 0 to 7. -/
def readUnit (f : Unit8 → State → List Byte) : Handler := fun _ args s =>
  match argUnit args with
  | none => (s, say .badArg)
  | some n => (s, sayWith .ok (f n s))

/-- A request on a port or channel, BAD_ARG outside 0 to 7. -/
def onUnit (f : Unit8 → List Byte → State → State × Answer) : Handler := fun _ args s =>
  match argUnit args with
  | none => (s, say .badArg)
  | some n => f n args s

/-- A request that names an item by the 3 bytes at offset 0 (R33). -/
def onItem (f : Item → Master → List Byte → State → State × Answer) : Handler := fun m args s =>
  match findItem s (argNat args 0 3) with
  | none => (s, say (absentItem s.itab (argNat args 0 3)))
  | some it => f it m args s

/-- A request that names a frame by the handle at offset 0 (R119). -/
def onFrame (f : Handle → FrameRecord → Master → State → State × Answer) : Handler := fun m args s =>
  match recordAt s (argHandle args) with
  | none => (s, say .unknownFrame)
  | some r => f (argHandle args) r m s

/-- A number lies in a range, ends included. -/
def within (lo hi v : Nat) : Bool := decide (lo ≤ v) && decide (v ≤ hi)

/-- The ten bytes of an optional position and stamp. -/
def optMark (m : Option (Pos × Stamp)) : List Byte := optBytes 10 (m.map fun x => posBytes x.1 ++ stampBytes x.2)

end Sys2Proof.Machine
end

