-- ==== Sys2Proof/Machine/PositionRequests.lean ====
section
/-! DEFINITION. The requests of POSU (01) and CAPU (02): position, sources, speed, inputs and captures. -/

namespace Sys2Proof.Machine

/-! ## Position (R6 to R8, R17, R21, R22) -/

/-- The qualification count that READ_POSITION gives. -/
def switchCount (p : Posu) : Nat :=
  match p.pendingSwitch with
  | none => 0
  | some w => w.count

/-- The fault score that READ_POSITION gives. -/
def faultScore (p : Posu) : Nat :=
  match p.monitor with
  | none => 0
  | some m => m.score

/-- The position snapshot (R21). -/
def positionSnapshot (s : State) : List Byte :=
  let p := s.posu
  posBytes p.position ++ stampBytes s.stamp ++ [p.active.code] ++ optByte (p.pendingSwitch.map (·.target.code)) ++
    be 2 (switchCount p) ++ [boolByte (p.pendingSwitch.any fun w => w.deadline.isSome)] ++ beInt 4 p.measuredSpeed ++
    be 4 p.synthSpeed ++ be 1 (faultScore p) ++
    optBytes 8 (p.lastSwitch.map fun r => r.target.code :: r.outcome.code :: stampBytes r.stamp) ++
    optBytes 12 (p.lastFailover.map fun r => r.source.code :: r.cause.code :: (stampBytes r.stamp ++ be 4 r.speed))

/-- READ_POSITION (R21). -/
def runReadPosition : Handler := readAs positionSnapshot

/-- The six settings (R22). -/
def positionSettings (s : State) : List Byte :=
  let g := s.posu.settings
  be 2 g.qualCount ++ be 2 g.switchLimit ++ be 2 g.silenceWindow ++ be 1 g.faultLimit ++ [g.quadSense.code, g.stepSense.code]

/-- READ_POSITION_CONFIG (R22). -/
def runReadPositionConfig : Handler := readAs positionSettings

/-- A source that is active or is the target of a pending switch (R6). -/
def inUse (p : Posu) (src : Source) : Bool := decide (p.active = src) || p.pendingSwitch.any fun w => decide (w.target = src)

/-- A pending switch under a new QUAL_COUNT (R6, R9). -/
def PendingSwitch.requalified (p : PendingSwitch) (q : Nat) : PendingSwitch :=
  { p with count := if p.target = .synth then q else min p.count q }

/-- SET_POSITION_CONFIG with arguments in range (R6). -/
def setPositionConfig (g : PositionSettings) (s : State) : State × Answer :=
  let p := s.posu
  if decide (g.quadSense ≠ p.settings.quadSense) && inUse p .quad ||
      decide (g.stepSense ≠ p.settings.stepSense) && inUse p .step then (s, say .busy)
  else (s.setPosu { p with settings := g, pendingSwitch := p.pendingSwitch.map (·.requalified g.qualCount) }, say .ok)

/-- SET_POSITION_CONFIG (R6). -/
def runSetPositionConfig : Handler := fun _ args s =>
  let qual := argNat args 0 2
  let limit := argNat args 2 2
  let silence := argNat args 4 2
  let faults := argNat args 6 1
  match senseOf (argNat args 7 1), senseOf (argNat args 8 1) with
  | some quad, some step =>
    if within 16 4096 qual && within 10 10000 limit && within 1 1000 silence && within 1 15 faults then
      setPositionConfig { qualCount := qual, switchLimit := limit, silenceWindow := silence, faultLimit := faults
                          quadSense := quad, stepSense := step } s
    else (s, say .badArg)
  | _, _ => (s, say .badArg)

/-- A new pending switch to `target` (R7 case 3): any pending switch ends SUPERSEDED first. -/
def beginSwitch (target : Source) (s : State) : State :=
  let s1 := endSwitch .superseded s
  s1.setPosu { s1.posu with pendingSwitch := some {
    target := target
    count := if target = .synth then s1.posu.settings.qualCount else 0
    deadline := some (stampPlus s.stamp (s1.posu.settings.switchLimit * perMilli)) } }

/-- SELECT_SOURCE (R7). -/
def runSelectSource : Handler := fun _ args s =>
  match sourceOf (argNat args 0 1) with
  | none => (s, say .badArg)
  | some target =>
    if s.posu.active = target then
      if s.posu.pendingSwitch.isNone then (s, say .redundant) else (endSwitch .cancelled s, say .ok)
    else (beginSwitch target s, say .ok)

/-- ABORT_SWITCH (R8). -/
def runAbortSwitch : Handler := fun _ _ s =>
  if s.posu.pendingSwitch.isNone then (s, say .redundant) else (endSwitch .cancelled s, say .ok)

/-- SET_SPEED (R17). -/
def runSetSpeed : Handler := fun _ args s =>
  let v := argNat args 0 4
  if v = 0 ∨ within 10 4000000 v then (setSpeedTo v s, say .ok)
  else
    let w := if v < 10 then 10 else 4000000
    (setSpeedTo w s, sayWith .clamped (be 4 w))

/-! ## Capture (R25, R28, R29) -/

/-- One input as READ_INPUTS gives it (R29). -/
def inputBytes (u : InputUnit) : List Byte :=
  [levelCode u.filtered, boolByte u.pendingEdge.isSome, u.edges.code] ++ be 2 u.filter ++ [levelCode u.level, u.role.code]

/-- The snapshot of READ_INPUTS (R29). -/
def inputsSnapshot (s : State) : List Byte :=
  let c := s.capu
  inputBytes c.item ++ inputBytes c.aux1 ++ inputBytes c.aux2 ++ inputBytes c.stop ++ be 1 c.fifo.length ++ be 2 c.dropped

/-- READ_INPUTS (R29). -/
def runReadInputs : Handler := readAs inputsSnapshot

/-- The newest live item is ENTERING (R25, R34, R41). -/
def newestEntering (s : State) : Bool := (newest s.itab).any fun it => decide (it.state = .entering)

/-- SET_INPUT with arguments in range (R25). -/
def setInput (i : CaptureInput) (edges : EdgeSelection) (filter : Nat) (level : Level) (role : Role) (s : State) :
    State × Answer :=
  let u := s.capu.input i
  let changes := decide (i = .item) && (decide (edges ≠ u.edges) || decide (level ≠ u.level))
  if decide (i = .stop) && decide (edges ≠ .both) then (s, say .badArg)
  else if changes && newestEntering s then (s, say .busy)
  else
    let s1 := modInput i (fun u => { u with edges := edges, filter := filter, level := level, role := role }) s
    (if changes then s1.setItab { s1.itab with suppression := false } else s1, say .ok)

/-- SET_INPUT (R25). -/
def runSetInput : Handler := fun _ args s =>
  match inputOf (argNat args 0 1), edgesOf (argNat args 1 1), levelOf (argNat args 4 1), roleOf (argNat args 5 1) with
  | some i, some edges, some level, some role => setInput i edges (argNat args 2 2) level role s
  | _, _, _, _ => (s, say .badArg)

/-- A capture record on the wire (R26). -/
def captureBytes (r : CaptureRecord) : List Byte := [r.input.code, r.edge.code] ++ posBytes r.position ++ stampBytes r.stamp

/-- READ_CAPTURE (R28). -/
def runReadCapture : Handler := fun _ _ s =>
  let s1 := s.setCapu { s.capu with fifo := s.capu.fifo.tail, dropped := 0 }
  match s.capu.fifo with
  | [] => (s1, sayWith .empty (be 2 s.capu.dropped))
  | r :: t => (s1, sayWith .ok (captureBytes r ++ be 1 t.length ++ be 2 s.capu.dropped))

end Sys2Proof.Machine
end

