-- ==== Sys2Proof/Machine/ItemRequests.lean ====
section
/-! DEFINITION. The requests of ITAB (02 and 07): items, geometry, verdicts and retirements. -/

namespace Sys2Proof.Machine

/-- READ_ITEM (R47). -/
def runReadItem : Handler := onItem fun it _ _ s => (s, sayWith .ok (itemSnapshot it))

/-- The list of LIST_ITEMS (R48). -/
def itemList (s : State) : List Byte :=
  let t := s.itab
  be 1 t.items.length ++ (t.items.flatMap fun it => itemBytes it.number ++ [it.state.code]) ++ itemBytes t.nextNumber ++
    be 4 t.assigned ++ [boolByte t.suppression] ++ be 1 t.blind.length ++ t.blind.flatMap posBytes ++
    countBytes t.refusedEdges ++ countBytes t.overflowEdges ++ countBytes t.blindLost

/-- LIST_ITEMS (R48). -/
def runListItems : Handler := readAs itemList

/-- The five settings (R49). -/
def geometryBytes (s : State) : List Byte :=
  let g := s.itab.geometry
  be 2 g.minGap ++ be 4 g.maxLength ++ be 4 g.ejectDistance ++ [g.defaultVerdict.code, g.blindPolicy.code]

/-- READ_ITEM_GEOMETRY (R49). -/
def runReadItemGeometry : Handler := readAs geometryBytes

/-- The largest offset among the channels in ITEM plan, 0 when there are none (R46). -/
def largestOffset (s : State) : Nat :=
  ((units.filter fun n => decide ((s.chan n).plan = .item)).map fun n => (s.chan n).offset).foldl max 0

/-- SET_ITEM_GEOMETRY (R46). -/
def runSetItemGeometry : Handler := fun _ args s =>
  let gap := argNat args 0 2
  let len := argNat args 2 4
  let dist := argNat args 6 4
  if !s.itab.items.isEmpty then (s, say .busy)
  else
    match verdictOf (argNat args 10 1), blindPolicyOf (argNat args 11 1) with
    | some v, some b =>
      if within 1 65535 gap && within 1 16777216 len && within 2 1073741824 dist &&
          decide (len + largestOffset s < dist) then
        (s.setItab { s.itab with geometry := {
          minGap := gap, maxLength := len, ejectDistance := dist, defaultVerdict := v, blindPolicy := b } }, say .ok)
      else (s, say .badArg)
    | _, _ => (s, say .badArg)

/-- DECLARE_ITEM (R41, R188): with 12 bytes or more the tag is there. -/
def runDeclareItem : Handler := fun _ args s =>
  let start := BitVec.ofNat 32 (argNat args 0 4)
  let length := argNat args 4 4
  let tag := if 12 ≤ args.length then some (BitVec.ofNat 32 (argNat args 8 4)) else none
  match declareRefusal s start length with
  | some r => (s, say r)
  | none =>
    let it := declaredItem s.itab start length tag
    (createDeclared it s, sayWith .ok (itemBytes it.number))

/-- TAG_ITEM (R42). -/
def runTagItem : Handler := onItem fun it _ args s =>
  (modItem it.number (fun i => { i with tag := some (BitVec.ofNat 32 (argNat args 3 4)) }) s, say .ok)

/-- WITHDRAW_ITEM (R43). -/
def runWithdrawItem : Handler := onItem fun it _ _ s => (withdraw it s, say .ok)

/-- A verdict for a number that is not live (R135). -/
def lateVerdict (n : Nat) (s : State) : State × Answer :=
  (if isGone s.itab n then s.setItab { s.itab with lateVerdicts := s.itab.lateVerdicts + 1 } else s,
    say (absentItem s.itab n))

/-- VERDICT (R135). -/
def runVerdict : Handler := fun _ args s =>
  match verdictOf (argNat args 3 1) with
  | none => (s, say .badArg)
  | some v =>
    match findItem s (argNat args 0 3) with
    | none => lateVerdict (argNat args 0 3) s
    | some it =>
      if it.lineOverride.isSome then (s.setItab { s.itab with overridden := s.itab.overridden + 1 }, say .overridden)
      else (modItem it.number (fun i => { i with officeVerdict := some v }) s, say .ok)

/-- The choice of an override: CLEAR is 0 (R199). -/
def choiceOf : Nat → Option (Option Verdict)
  | 0 => some none
  | 1 => some (some .pass)
  | 2 => some (some .reject)
  | _ => none

/-- OVERRIDE (R136). -/
def runOverride : Handler := fun m args s =>
  match choiceOf (argNat args 3 1) with
  | none => (s, say .badArg)
  | some choice =>
    onItem (fun it _ _ s =>
      if choice.isNone && it.lineOverride.isNone then (s, say .redundant)
      else (modItem it.number (fun i => { i with lineOverride := choice }) s, say .ok)) m args s

/-- SET_HOLD_REJECTED (R142). -/
def runSetHoldRejected : Handler := fun _ args s =>
  match boolOf (argNat args 0 1) with
  | none => (s, say .badArg)
  | some b => (modFwd (fun f => { f with holdRejected := b }) s, say .ok)

/-- The ten counts (R146). Of the six pairs the model sends those of PASS first, each verdict's by LINE, OFFICE and DEFAULT, as
the state table of section 7.1 names the two factors (log entry 15). -/
def retirementCounts (t : Itab) : List Byte :=
  let c := t.retired
  [c.passLine, c.passOffice, c.passDefault, c.rejectLine, c.rejectOffice, c.rejectDefault, t.withdrawn, t.blindEjects,
    t.lateVerdicts, t.overridden].flatMap countBytes

/-- The snapshot of READ_RETIREMENTS (R146). With an empty table the distance is absent as the position is, under a presence
byte of its own (log entry 15). -/
def retirementsSnapshot (s : State) : List Byte :=
  let t := s.itab
  let next := t.items.head?.map (·.ejectAt)
  retirementCounts t ++
    optBytes 15 (t.lastRetirement.map fun r =>
      itemBytes r.number ++ [r.verdict.code, r.source.code] ++ posBytes r.position ++ stampBytes r.stamp) ++
    [boolByte s.fwd.holdRejected, t.geometry.defaultVerdict.code] ++ optPos next ++
    optPos (next.map fun e => e - s.posu.position)

/-- READ_RETIREMENTS (R146). -/
def runReadRetirements : Handler := readAs retirementsSnapshot

end Sys2Proof.Machine
end

