-- ==== Sys2Proof/Machine/ChannelRequests.lean ====
section
/-! DEFINITION. The requests of TRGU (03): channels, pulses, plans, halts and the eject output. -/

namespace Sys2Proof.Machine

/-! ## Reading a channel (R74) -/

/-- The free-running target on the wire. The until input and the until action each have a presence byte, where R74 and R199
leave open one for the pair (log entry 15). -/
def freeRunBytes (t : FreeRun) : List Byte :=
  posBytes t.next ++ optPos t.last ++ be 4 t.pitch ++ optBytes 2 (t.remaining.map (be 2)) ++
    optByte (t.stopOn.map fun u => u.1.code) ++ optByte (t.stopOn.map fun u => u.2.code)

/-- The open window on the wire. The detached mark is a byte of its own after the close position (log entry 15). -/
def windowBytes (w : Window) : List Byte :=
  itemBytes w.item ++ handleBytes w.handle ++ posBytes w.nextLine ++ [boolByte w.outstanding] ++
    optPos (w.close.map (·.1)) ++ [boolByte (w.close.any fun c => decide (c.2 = .detached))]

/-- A shot queue entry on the wire. -/
def entryBytes (e : ShotEntry) : List Byte := itemBytes e.item ++ posBytes e.pos ++ [e.kind.code]

/-- A set of pulse settings on the wire. -/
def pulseBytes (p : PulseSettings) : List Byte :=
  be 2 p.width ++ [boolByte p.strobe] ++ be 2 p.strobeDelay ++ be 2 p.strobeWidth

/-- STRBn is high. -/
def Strobe.isHigh : Strobe → Bool
  | .low => false
  | .delaying _ _ => false
  | .high _ => true

/-- The channel snapshot (R74). -/
def channelSnapshot (n : Unit8) (s : State) : List Byte :=
  let c := s.chan n
  [c.state.code, c.plan.code, (s.port n).kind.code] ++ be 4 c.offset ++ be 2 c.scanPitch ++
    optBytes 20 (c.freeRun.map freeRunBytes) ++ be 1 c.queue.length ++ c.queue.flatMap entryBytes ++ be 1 (load c) ++
    optBytes 16 (c.window.map windowBytes) ++ pulseBytes c.active ++ pulseBytes c.shadow ++
    [levelCode (pinLevel c.trigger.isSome), levelCode (pinLevel c.strobe.isHigh)] ++ optMark c.untilMark ++
    countBytes c.fired ++ countBytes c.skipped

/-- READ_CHANNEL (R74). -/
def runReadChannel : Handler := readUnit channelSnapshot

/-! ## Settings (R52, R53) -/

/-- EJECT_DISTANCE exceeds MAX_ITEM_LENGTH plus an offset (R46, R52, R54). -/
def ejectClears (s : State) (offset : Nat) : Bool :=
  decide (s.itab.geometry.maxLength + offset < s.itab.geometry.ejectDistance)

/-- SET_CHANNEL (R52). -/
def runSetChannel : Handler := onUnit fun n args s =>
  let offset := argNat args 1 4
  let pitch := argNat args 5 2
  if !(within 0 16777216 offset && within 1 65535 pitch && ejectClears s offset) then (s, say .badArg)
  else if decide ((s.chan n).state ≠ .idle) || !(s.chan n).queue.isEmpty then (s, say .busy)
  else (modChan n (fun c => { c with offset := offset, scanPitch := pitch }) s, say .ok)

/-- SET_PULSE (R53). -/
def runSetPulse : Handler := onUnit fun n args s =>
  let width := argNat args 1 2
  let strobeWidth := argNat args 6 2
  match boolOf (argNat args 3 1) with
  | none => (s, say .badArg)
  | some b =>
    if within 1 65535 width && within 1 65535 strobeWidth then
      (modChan n (fun c => { c with shadow := {
        width := width, strobe := b, strobeDelay := argNat args 4 2, strobeWidth := strobeWidth } }) s, say .ok)
    else (s, say .badArg)

/-! ## Plans (R54 to R57) -/

/-- PLAN_ITEM (R54). -/
def runPlanItem : Handler := onUnit fun n _ s =>
  if !ejectClears s (s.chan n).offset then (s, say .badArg)
  else if (s.chan n).state ≠ .idle then (s, say .busy)
  else (modChan n (fun c => { c with state := .running, plan := .item }) s, say .ok)

/-- A pitch in range (R55 to R57). -/
def pitchOk (v : Nat) : Bool := within 1 16777216 v

/-- A PITCH or UNTIL plan may start: the channel is IDLE, or RUNNING PITCH or UNTIL (R55, R57). -/
def freePlanOpen (c : Channel) : Bool :=
  match c.state with
  | .idle => true
  | .running => decide (c.plan = .pitch) || decide (c.plan = .untilEdge)
  | .halting => false

/-- The free-running target of a new PITCH or UNTIL plan (R55): after the last target of the plan it replaces, or else a
pitch from the position at acceptance. -/
def freshTarget (c : Channel) (now : Pos) (pitch : Nat) (stopOn : Option (AuxInput × UntilAction)) : FreeRun :=
  let last := if c.state = .idle then none else c.freeRun.bind (·.last)
  { next := posPlus (last.getD now) pitch, last := last, pitch := pitch, stopOn := stopOn }

/-- A PITCH or UNTIL plan started or replaced (R55, R57). -/
def startFreePlan (n : Unit8) (pitch : Nat) (plan : Plan) (stopOn : Option (AuxInput × UntilAction)) (s : State) :
    State × Answer :=
  if (s.port n).kind = .scan then (s, say .badArg)
  else if !freePlanOpen (s.chan n) then (s, say .busy)
  else
    (modChan n (fun c => { c with
      state := .running, plan := plan, freeRun := some (freshTarget c s.posu.position pitch stopOn) }) s, say .ok)

/-- RUN_PITCH (R55). -/
def runRunPitch : Handler := onUnit fun n args s =>
  if !pitchOk (argNat args 1 4) then (s, say .badArg) else startFreePlan n (argNat args 1 4) .pitch none s

/-- RUN_UNTIL (R57). -/
def runRunUntil : Handler := onUnit fun n args s =>
  match auxOf (argNat args 5 1), actionOf (argNat args 6 1) with
  | some i, some a =>
    if !pitchOk (argNat args 1 4) then (s, say .badArg)
    else startFreePlan n (argNat args 1 4) .untilEdge (some (i, a)) s
  | _, _ => (s, say .badArg)

/-- SHOOT_COUNT (R56). -/
def runShootCount : Handler := onUnit fun n args s =>
  let k := argNat args 1 2
  let pitch := argNat args 3 4
  if !(within 1 65535 k && pitchOk pitch) then (s, say .badArg)
  else if (s.port n).kind = .scan then (s, say .badArg)
  else if (s.chan n).state ≠ .idle then (s, say .busy)
  else
    (modChan n (fun c => { c with
      state := .running, plan := .count
      freeRun := some { next := posPlus s.posu.position pitch, pitch := pitch, remaining := some k } }) s, say .ok)

/-! ## Halts (R67) -/

/-- The channels that a mask names and that are not IDLE (R67). -/
def namedChannels (s : State) (mask : Nat) : List Unit8 :=
  units.filter fun n => mask.testBit n.val && decide ((s.chan n).state ≠ .idle)

/-- HALT_SOFT (R67, R68). -/
def runHaltSoft : Handler := fun _ args s => (forEachFree (namedChannels s (argNat args 0 1)) softHalt s, say .ok)

/-- HALT_HARD (R67, R69). -/
def runHaltHard : Handler := fun _ args s => (forEachFree (namedChannels s (argNat args 0 1)) hardHalt s, say .ok)

/-! ## Eject output (R73) -/

/-- The microseconds left of the present pulse, 0 when low (R73). -/
def ejectLeft (s : State) : Nat :=
  match s.trgu.eject.upTo with
  | none => 0
  | some t => microsLeft s.stamp t

/-- The snapshot of READ_EJECT (R73). -/
def ejectSnapshot (s : State) : List Byte :=
  let e := s.trgu.eject
  [levelCode (pinLevel e.upTo.isSome)] ++ be 2 (ejectLeft s) ++ be 2 e.width ++ countBytes e.count

/-- READ_EJECT (R73). -/
def runReadEject : Handler := readAs ejectSnapshot

/-- SET_EJECT (R73). -/
def runSetEject : Handler := fun _ args s =>
  let w := argNat args 0 2
  if within 1 65535 w then (s.setEject { s.trgu.eject with width := w }, say .ok) else (s, say .badArg)

end Sys2Proof.Machine
end

