-- ==== Sys2Proof/Machine/PortRequests.lean ====
section
/-! DEFINITION. The requests of the camera ports (04) and packers (05). -/

namespace Sys2Proof.Machine

/-! ## Ports (R78 to R80, R95, R96) -/

/-- The ten counters (R94). -/
def PortCounters.bytes (c : PortCounters) : List Byte :=
  [c.started, c.completed, c.truncated, c.windowExpiries, c.unsolicited, c.stray, c.unrequested, c.discarded,
    c.lockLosses, c.gaps].flatMap countBytes

/-- The microseconds left before the frame window expires, present only in ARMED (R95). -/
def windowLeft (n : Unit8) (s : State) : Option Nat :=
  if (s.port n).state = .armed then (s.port n).windowEnd.map (microsLeft s.stamp) else none

/-- The port snapshot (R95). -/
def portSnapshot (n : Unit8) (s : State) : List Byte :=
  let p := s.port n
  [p.state.code, boolByte (s.locked n), p.kind.code] ++ be 2 p.width ++ be 2 p.lines ++ be 1 p.depth ++
    be 4 p.frameWindow ++ optBytes 4 (p.current.map fun h => handleBytes h ++ be 2 (linesReceived n s)) ++
    optBytes 4 ((windowLeft n s).map (be 4)) ++ optCounter p.lastCounter ++ p.counters.bytes

/-- READ_PORT (R95). -/
def runReadPort : Handler := readUnit portSnapshot

/-- The port and its channel take new settings: the port is DISABLED or IDLE, and the channel has no queued work and no open
window (R78, R100). -/
def settable (n : Unit8) (s : State) : Bool :=
  (decide ((s.port n).state = .disabled) || decide ((s.port n).state = .idle)) && (s.chan n).queue.isEmpty &&
    (s.chan n).window.isNone

/-- The depths a port may have (section 4.1). -/
def depthOk (d : Nat) : Bool := decide (d = 8) || decide (d = 10) || decide (d = 12) || decide (d = 14)

/-- SET_PORT (R78). -/
def runSetPort : Handler := onUnit fun n args s =>
  let width := argNat args 2 2
  let lines := argNat args 4 2
  let depth := argNat args 6 1
  let window := argNat args 7 4
  match portKindOf (argNat args 1 1) with
  | none => (s, say .badArg)
  | some kind =>
    if !(within 16 8192 width && decide (width % 16 = 0) && within 1 4096 lines && depthOk depth &&
        within 1 1000000 window) then (s, say .badArg)
    else if !settable n s then (s, say .busy)
    else
      (modPort n (fun p => { p with
        kind := kind, width := width, lines := lines, depth := depth, frameWindow := window }) s, say .ok)

/-- ENABLE_PORT (R79). -/
def runEnablePort : Handler := onUnit fun n _ s =>
  if (s.port n).state ≠ .disabled then (s, say .busy)
  else (settleAs n (if s.locked n then .idle else .unlocked) s, say .ok)

/-- DISABLE_PORT (R80). -/
def runDisablePort : Handler := onUnit fun n _ s =>
  if (s.port n).state ≠ .idle then (s, say .busy) else (settleAs n .disabled s, say .ok)

/-- The state of a port after RESET_PORT (R96 step 4). -/
def restState (was : PortState) (locked : Bool) : PortState :=
  if was = .disabled then .disabled else if locked then .idle else .unlocked

/-- RESET_PORT (R75, R96). -/
def resetPort (n : Unit8) (s : State) : State :=
  let s1 := hardHalt n s
  let s2 := modChan n (fun c => { c with fired := 0, skipped := 0, untilMark := none }) s1
  settleAs n (restState (s.port n).state (s.locked n))
    (modPort n (fun p => { p with counters := {}, lastCounter := none }) s2)

/-- RESET_PORT (R96). -/
def runResetPort : Handler := onUnit fun n _ s => (resetPort n s, say .ok)

/-! ## Packers (R100, R108, R113) -/

/-- The seven conversion settings (R113). -/
def Conversion.bytes (c : Conversion) : List Byte :=
  [c.format.code] ++ beInt 2 c.blackOffset ++ be 2 c.gain ++ [c.rounding.code, c.rangeMode.code] ++ be 4 c.faultLimit ++
    [boolByte c.faultReport]

/-- The snapshot of READ_CONVERSION (R113). -/
def conversionSnapshot (n : Unit8) (s : State) : List Byte :=
  let p := s.packer n
  p.conversion.bytes ++ [previewByte (if p.previewOn then some p.previewFactor else none)] ++
    optBytes 4 (p.context.map fun c => handleBytes c.handle ++ [previewByte c.preview] ++ be 1 c.rows)

/-- READ_CONVERSION (R113). -/
def runReadConversion : Handler := readUnit conversionSnapshot

/-- SET_CONVERSION with values that name settings (R100). -/
def setConversion (n : Unit8) (c : Conversion) (s : State) : State × Answer :=
  if !(decide (-4096 ≤ c.blackOffset) && decide (c.blackOffset ≤ 4095) && decide (c.faultLimit ≤ 16777216)) then
    (s, say .badArg)
  else if !settable n s then (s, say .busy)
  else (s.setPacker n { s.packer n with conversion := c }, say .ok)

/-- SET_CONVERSION (R100). -/
def runSetConversion : Handler := onUnit fun n args s =>
  match formatOf (argNat args 1 1), roundingOf (argNat args 6 1), rangeModeOf (argNat args 7 1),
      boolOf (argNat args 12 1) with
  | some format, some rounding, some mode, some rep =>
    setConversion n {
      format := format, blackOffset := argInt2 args 2, gain := argNat args 4 2, rounding := rounding, rangeMode := mode
      faultLimit := argNat args 8 4, faultReport := rep } s
  | _, _, _, _ => (s, say .badArg)

/-- The preview factors (R108). -/
def factorOk (d : Nat) : Bool := decide (d = 2) || decide (d = 4) || decide (d = 8) || decide (d = 16)

/-- SET_PREVIEW (R108). -/
def runSetPreview : Handler := onUnit fun n args s =>
  match boolOf (argNat args 1 1) with
  | none => (s, say .badArg)
  | some b =>
    if factorOk (argNat args 2 1) then
      (s.setPacker n { s.packer n with previewOn := b, previewFactor := argNat args 2 1 }, say .ok)
    else (s, say .badArg)

end Sys2Proof.Machine
end

