-- ==== Sys2Proof/Machine/StoreRequests.lean ====
section
/-! DEFINITION. The requests of FSTO (06): frames, holders, discards and the store. -/

namespace Sys2Proof.Machine

/-- READ_FRAME (R132). -/
def runReadFrame : Handler := onFrame fun h r _ s =>
  (s, sayWith .ok (frameSnapshot h r (s.fsto.age.contains h) r.eligible))

/-- The number of records that pass a test. -/
def recordCount (s : State) (p : FrameRecord → Bool) : Nat := (handlesWhere s p).length

/-- The snapshot of READ_STORE (R133). The rule states no range for the numbers of records: the model gives each the 2 bytes that
hold the 512 slots they are counted out of, those of EXPECTED and FILLING too, which R76 keeps to 8 (log entry 29). -/
def storeSnapshot (s : State) : List Byte :=
  let f := s.fsto
  be 2 f.pool.length ++ be 2 f.lowWater ++ be 2 (512 - recordCount s fun _ => true) ++
    be 2 (recordCount s fun r => decide (r.state = .expected)) ++ be 2 (recordCount s fun r => decide (r.state = .filling)) ++
    be 2 (recordCount s fun r => decide (r.state = .complete)) ++
    be 2 (recordCount s fun r => r.state.reason.isSome) ++
    be 2 f.age.length ++ be 2 (f.age.countP fun h => eligibleAt s h) ++ countBytes f.evictions ++
    countBytes f.recordShortages ++ countBytes f.blockShortages

/-- READ_STORE (R133). -/
def runReadStore : Handler := readAs storeSnapshot

/-- The holders of a record changed for one master. -/
def putHolder (h : Handle) (m : Master) (b : Bool) (s : State) : State :=
  modRecord h (fun r => { r with holders := r.holders.put m b }) s

/-- HOLD (R128). -/
def runHold : Handler := onFrame fun h r m s =>
  if r.holders.has m then (s, say .already) else (putHolder h m true s, say .ok)

/-- RELEASE (R129). -/
def runRelease : Handler := onFrame fun h r m s =>
  if r.holders.has m then (putHolder h m false s, say .ok) else (s, say .notHeld)

/-- A part of a record is being sent. -/
def FrameRecord.anySending (r : FrameRecord) : Bool := decide (r.previewState = .sending) || decide (r.fullState = .sending)

/-- DISCARD (R130). -/
def runDiscard : Handler := onFrame fun h r m s =>
  if !r.state.finished || r.anySending || r.live then (s, say .busy)
  else if r.holders.has (otherMaster m) then (s, say .held)
  else (freeRecord h s, say .ok)

/-- CLEAR_STORE frees a record (R131). -/
def clearable (r : FrameRecord) : Bool := r.state.finished && !r.anySending && !r.live

/-- The handles of an age list that name records CLEAR_STORE frees, oldest first (R131). -/
def clearableHandles (s : State) : List Handle :=
  s.fsto.age.filter fun h => match recordAt s h with
    | none => false
    | some r => clearable r

/-- CLEAR_STORE (R131): the records freed and the blocks returned are counted in the answer. -/
def runClearStore : Handler := fun _ _ s =>
  let handles := clearableHandles s
  let s1 := handles.foldl (fun s h => freeRecord h s) s
  (setOffice .storeCleared s1,
    sayWith .ok (be 2 handles.length ++ be 2 (s1.fsto.pool.length - s.fsto.pool.length)))

/-- SET_LOW_WATER (R116). -/
def runSetLowWater : Handler := fun _ args s =>
  let v := argNat args 0 2
  if v ≤ 16383 then (s.setFsto { s.fsto with lowWater := v }, say .ok) else (s, say .badArg)

end Sys2Proof.Machine
end

