-- ==== Sys2Proof/Machine/LinkRequests.lean ====
section
/-! DEFINITION. The requests of LNK (08), FWD (09) and RNU (10). -/

namespace Sys2Proof.Machine

/-! ## Link (R164 to R166) -/

/-- The eleven counters (R166). -/
def LinkCounters.bytes (c : LinkCounters) : List Byte :=
  [c.delimiterErrors, c.crcErrors, c.badLength, c.wrongKind, c.early, c.accepted, c.controlSent, c.imageSent, c.cut, c.ups,
    c.downs].flatMap countBytes

/-- The far state on the wire. -/
def farBytes (f : FarState) : List Byte := [f.state, f.epoch] ++ optByte f.echo

/-- The link snapshot (R166). -/
def linkSnapshot (s : State) : List Byte :=
  let l := s.lnk
  [l.state.code, boolByte s.pins.light] ++ optBytes 1 (l.hold.map fun t => be 1 (microsLeft s.stamp t)) ++
    [boolByte l.retrainPending, l.epoch, l.framer.code] ++ be 1 l.alignCount ++ be 1 l.errorRun ++
    optBytes 4 (l.far.map farBytes) ++ [boolByte l.farAligned] ++ lastDownBytes l.lastDown ++ l.counters.bytes

/-- READ_LINK (R166). -/
def runReadLink : Handler := readAs linkSnapshot

/-- RETRAIN_LINK (R164, R165). -/
def runRetrainLink : Handler := fun m _ s =>
  match m with
  | .line => (retrainNow s, say .ok)
  | .office =>
    if s.lnk.retrainPending then (s, say .already)
    else (modLnk (fun l => { l with retrainPending := true }) s, say .ok)

/-! ## Forwarder (R171, R178, R180, R181, R185) -/

/-- The ten counters (R186). -/
def ForwardCounters.bytes (c : ForwardCounters) : List Byte :=
  [c.fullSegments, c.previewSegments, c.fullTransfers, c.previewTransfers, c.restarted, c.abandoned, c.messagesDropped,
    c.commandsDropped, c.autoFullSkipped, c.creditDiscarded].flatMap countBytes

/-- A lane on the wire: whether it is free, and its transfer, whose bytes are 0 when it is. -/
def laneBytes (t : Option Transfer) : List Byte :=
  match t with
  | none => 1 :: List.replicate 7 0
  | some t => 0 :: (handleBytes t.handle ++ be 2 t.segments ++ be 2 t.next ++ [boolByte t.restart])

/-- The entries of a queue that carry the restart mark. -/
def restartCount (q : List ImageEntry) : Nat := q.countP (·.restart)

/-- The forwarder snapshot (R185). The number of restart marks in a queue has the size that holds the queue's greatest length, which
no rule states (log entry 29). -/
def forwardSnapshot (s : State) : List Byte :=
  let f := s.fwd
  be 1 f.credit ++ be 1 f.fullRun ++ be 1 (occupancy f) ++ [boolByte f.reserved] ++ be 1 f.pull.length ++
    be 1 (awaitCount s) ++ be 1 (pullLoad s) ++ be 2 f.preview.length ++ be 1 (restartCount f.pull) ++
    be 2 (restartCount f.preview) ++ optHandle (f.pull.head?.map (·.handle)) ++
    optHandle (f.preview.head?.map (·.handle)) ++ laneBytes f.fullLane ++ [boolByte (abandoningLane f .full)] ++
    laneBytes f.previewLane ++ f.autoFull.toList.map AutoFull.code ++ [boolByte f.holdRejected] ++ f.counters.bytes

/-- READ_FORWARD (R185). -/
def runReadForward : Handler := readAs forwardSnapshot

/-- CREDIT (R171). -/
def runCredit : Handler := fun _ args s =>
  let n := argNat args 0 2
  if !within 1 255 n then (s, say .badArg)
  else if s.fwd.credit + n ≤ 255 then
    (modFwd (fun f => { f with credit := f.credit + n }) s, sayWith .ok (be 1 (s.fwd.credit + n)))
  else (modFwd (fun f => { f with credit := 255 }) s, sayWith .clamped (be 1 255))

/-- The full state of a record, NONE where there is no record. -/
def fullStateAt (s : State) (h : Handle) : FullState :=
  match recordAt s h with
  | none => .none
  | some r => r.fullState

/-- The OK of a PULL: the full state after the request and the pull load (R178). -/
def pullAnswer (h : Handle) (s : State) : State × Answer :=
  (s, sayWith .ok ((fullStateAt s h).code :: be 1 (pullLoad s)))

/-- PULL (R178). -/
def runPull : Handler := onFrame fun h r _ s =>
  if r.fullState = .await ∨ r.fullState = .queued ∨ r.fullState = .sending then (s, say .already)
  else if 64 ≤ pullLoad s then (s, say .queueFull)
  else if r.state.finished then pullAnswer h (joinPull h s)
  else pullAnswer h (modRecord h (fun r => { r with fullState := .await }) s)

/-- CANCEL_PULL (R180). -/
def runCancelPull : Handler := onFrame fun h r _ s =>
  match r.fullState with
  | .none => (s, say .redundant)
  | .sent => (s, say .redundant)
  | .await => (modRecord h (fun r => { r with fullState := .none }) s, say .ok)
  | .queued =>
    (modRecord h (fun r => { r with fullState := .none })
      (modFwd (fun f => { f with pull := f.pull.filter fun e => e.handle != h }) s), say .ok)
  | .sending => (abandonPull h s, say .ok)

/-- SET_AUTO_FULL (R181). -/
def runSetAutoFull : Handler := onUnit fun n args s =>
  match autoFullOf (argNat args 1 1) with
  | none => (s, say .badArg)
  | some p => (modFwd (fun f => { f with autoFull := f.autoFull.set n p }) s, say .ok)

/-! ## Notices and reset (R190, R194, R195, R198) -/

/-- NOP (R190): it asks for nothing and has no response. -/
def runNop : Handler := fun _ _ s => (s, [])

/-- READ_STATUS (R194). -/
def runReadStatus : Handler := fun m _ s =>
  match m with
  | .line => (s.setRnu { s.rnu with lineView := 0 }, sayWith .ok (noticeBytes s.rnu.lineView ++ noticeBytes s.rnu.lineMask))
  | .office =>
    (s.setRnu { s.rnu with officeView := 0 }, sayWith .ok (noticeBytes s.rnu.officeView ++ noticeBytes s.rnu.officeMask))

/-- SET_NOTICE_MASK (R195, R197). -/
def runSetNoticeMask : Handler := fun m args s =>
  let arg := BitVec.ofNat 32 (argNat args 0 4)
  match m with
  | .line =>
    let mask := arg &&& lineFlags
    (s.setRnu { s.rnu with lineMask := mask }, sayWith .ok (noticeBytes mask))
  | .office =>
    let mask := arg &&& officeFlags
    (callOffice s.rnu (s.setRnu { s.rnu with officeMask := mask }), sayWith .ok (noticeBytes mask))

/-- The length of the reset that RESET_DEVICE starts: 10 µs (R198). -/
def resetLength : Nat := 1000

/-- RESET_DEVICE (R198). -/
def runResetDevice : Handler := fun _ _ s => (deviceReset { s.hold with request := some resetLength } s, [])

end Sys2Proof.Machine
end

