-- ==== Sys2Proof/Machine/Transport.lean ====
section
/-! DEFINITION. RNU's two request paths (R188 to R193), the command table (R192), received frames (R157), device resets
(R198), and the timer events that are due. -/

namespace Sys2Proof.Machine

/-! ## The command table (R192) -/

/-- A request of LINE alone. -/
def lineOp (code : Byte) (argBytes : Nat) (run : Handler) : OpSpec :=
  { code := code, forLine := true, forOffice := false, argBytes := argBytes, run := run }

/-- A request of OFFICE alone. -/
def officeOp (code : Byte) (argBytes : Nat) (run : Handler) : OpSpec :=
  { code := code, forLine := false, forOffice := true, argBytes := argBytes, run := run }

/-- A request of either master. -/
def bothOp (code : Byte) (argBytes : Nat) (run : Handler) : OpSpec :=
  { code := code, forLine := true, forOffice := true, argBytes := argBytes, run := run }

def opNop := lineOp 0x00 0 runNop
def opReadStatus := bothOp 0x01 0 runReadStatus
def opSetNoticeMask := bothOp 0x02 4 runSetNoticeMask
def opResetDevice := lineOp 0x03 0 runResetDevice
def opReadPosition := bothOp 0x10 0 runReadPosition
def opReadPositionConfig := bothOp 0x11 0 runReadPositionConfig
def opSetPositionConfig := lineOp 0x12 9 runSetPositionConfig
def opSelectSource := lineOp 0x13 1 runSelectSource
def opAbortSwitch := lineOp 0x14 0 runAbortSwitch
def opSetSpeed := lineOp 0x15 4 runSetSpeed
def opReadInputs := bothOp 0x18 0 runReadInputs
def opSetInput := lineOp 0x19 6 runSetInput
def opReadCapture := lineOp 0x1A 0 runReadCapture
def opReadItem := bothOp 0x20 3 runReadItem
def opListItems := bothOp 0x21 0 runListItems
def opReadItemGeometry := bothOp 0x22 0 runReadItemGeometry
def opSetItemGeometry := lineOp 0x23 12 runSetItemGeometry
def opDeclareItem := lineOp 0x24 8 runDeclareItem
def opTagItem := lineOp 0x25 7 runTagItem
def opWithdrawItem := lineOp 0x26 3 runWithdrawItem
def opReadChannel := bothOp 0x30 1 runReadChannel
def opSetChannel := lineOp 0x31 7 runSetChannel
def opSetPulse := lineOp 0x32 8 runSetPulse
def opPlanItem := lineOp 0x33 1 runPlanItem
def opRunPitch := lineOp 0x34 5 runRunPitch
def opShootCount := lineOp 0x35 7 runShootCount
def opRunUntil := lineOp 0x36 7 runRunUntil
def opHaltSoft := lineOp 0x37 1 runHaltSoft
def opHaltHard := lineOp 0x38 1 runHaltHard
def opReadEject := bothOp 0x39 0 runReadEject
def opSetEject := lineOp 0x3A 2 runSetEject
def opReadPort := bothOp 0x40 1 runReadPort
def opSetPort := lineOp 0x41 11 runSetPort
def opEnablePort := lineOp 0x42 1 runEnablePort
def opDisablePort := lineOp 0x43 1 runDisablePort
def opResetPort := lineOp 0x44 1 runResetPort
def opReadConversion := bothOp 0x48 1 runReadConversion
def opSetConversion := lineOp 0x49 13 runSetConversion
def opSetPreview := officeOp 0x4A 3 runSetPreview
def opReadFrame := bothOp 0x50 2 runReadFrame
def opReadStore := bothOp 0x51 0 runReadStore
def opHold := bothOp 0x52 2 runHold
def opRelease := bothOp 0x53 2 runRelease
def opDiscard := bothOp 0x54 2 runDiscard
def opClearStore := lineOp 0x55 0 runClearStore
def opSetLowWater := lineOp 0x56 2 runSetLowWater
def opVerdict := officeOp 0x60 4 runVerdict
def opOverride := lineOp 0x61 4 runOverride
def opSetHoldRejected := officeOp 0x62 1 runSetHoldRejected
def opReadRetirements := bothOp 0x63 0 runReadRetirements
def opReadLink := bothOp 0x68 0 runReadLink
def opRetrainLink := bothOp 0x69 0 runRetrainLink
def opReadForward := bothOp 0x70 0 runReadForward
def opCredit := officeOp 0x71 2 runCredit
def opPull := officeOp 0x72 2 runPull
def opCancelPull := officeOp 0x73 2 runCancelPull
def opSetAutoFull := officeOp 0x74 2 runSetAutoFull

/-- The command table, in the order of R192. -/
def opTable : List OpSpec :=
  [opNop, opReadStatus, opSetNoticeMask, opResetDevice, opReadPosition, opReadPositionConfig, opSetPositionConfig,
    opSelectSource, opAbortSwitch, opSetSpeed, opReadInputs, opSetInput, opReadCapture] ++
  [opReadItem, opListItems, opReadItemGeometry, opSetItemGeometry, opDeclareItem, opTagItem, opWithdrawItem] ++
  [opReadChannel, opSetChannel, opSetPulse, opPlanItem, opRunPitch, opShootCount, opRunUntil, opHaltSoft, opHaltHard,
    opReadEject, opSetEject] ++
  [opReadPort, opSetPort, opEnablePort, opDisablePort, opResetPort, opReadConversion, opSetConversion, opSetPreview] ++
  [opReadFrame, opReadStore, opHold, opRelease, opDiscard, opClearStore, opSetLowWater, opVerdict, opOverride,
    opSetHoldRejected, opReadRetirements] ++
  [opReadLink, opRetrainLink, opReadForward, opCredit, opPull, opCancelPull, opSetAutoFull]

/-- The operation of a code, if the table knows it. -/
def lookupOp (code : Byte) : Option OpSpec := opTable.find? fun o => o.code == code

/-! ## The dispatcher (R188) -/

/-- A master is among the issuers of an operation. -/
def OpSpec.permits (o : OpSpec) : Master → Bool
  | .line => o.forLine
  | .office => o.forOffice

/-- The three checks, in order, and the taking of a request that passes them (R188). -/
def serve (found : Option OpSpec) (m : Master) (args : List Byte) (s : State) : State × Answer :=
  match found with
  | none => (s, say .unknownOperation)
  | some o =>
    if !o.permits m then (s, say .notPermitted)
    else if args.length < o.argBytes then (s, say .badLength)
    else o.run m args s

/-! ## The local port (R190, R191) -/

/-- What MISO carries in a transaction of `n` bytes: the response, and then 0x00 (R191). -/
def miso (response : List Byte) (n : Nat) : List Byte := (response ++ List.replicate n 0).take n

/-- CS_N falls, and bytes are shifted in (R190). In device reset the block is held, and of a transaction that a reset has
abandoned or that began in one no byte is taken (R198). -/
def beginTransaction (bytes : List Byte) (s : State) : State :=
  let s1 := { s with pins := { s.pins with csLow := true } }
  if inReset s || s.pins.csLow && s.rnu.transaction.isNone then s1
  else s1.setRnu { s1.rnu with transaction := some bytes }

/-- The rise of CS_N ends a transaction that the local port takes (R190, R198): the part is out of reset, and CS_N fell after
the last one. With CS_N high this is a transaction that falls and rises here. -/
def portTakes (s : State) : Bool := !inReset s && (!s.pins.csLow || s.rnu.transaction.isSome)

/-- One local transaction, at the rise of CS_N (R190): the buffer is emptied, the request is checked and taken, and its
response fills the buffer. A transaction whose fall came before the end of a device reset is ignored up to its rise
(R198). -/
def localRequest (found : Option OpSpec) (args : List Byte) (s : State) : State :=
  let s1 := { s with pins := { s.pins with csLow := false } }
  if portTakes s then
    let r := serve found .line args (s1.setRnu { s1.rnu with response := [], transaction := none })
    r.1.setRnu { r.1.rnu with response := r.2, shifted := miso s.rnu.response (1 + args.length) }
  else s1

/-! ## Remote requests (R170, R193, R200) -/

/-- The bodies of a run: 240 bytes each, and the remainder last (R200); `fuel` bounds their number. -/
def splitBody : Nat → List Byte → List (List Byte)
  | 0, l => [l]
  | fuel + 1, l => if l.length ≤ 240 then [l] else l.take 240 :: splitBody fuel (l.drop 240)

/-- RESPONSE frames of a body, MORE set on all but the last (R200). -/
def responseFrames (tag : BitVec 16) (op : Byte) : List (List Byte) → List ControlFrame
  | [] => []
  | [b] => [{ kind := .response, tag := tag, op := op, body := b }]
  | b :: t => { kind := .response, more := true, tag := tag, op := op, body := b } :: responseFrames tag op t

/-- The control queue entry of a response; the OK of RETRAIN_LINK is marked (R165, R193). -/
def responseEntry (tag : BitVec 16) (op : Byte) (a : Answer) : ControlEntry :=
  { frames := responseFrames tag op (splitBody a.length a)
    retrain := op == 0x69 && a.head? == some Result.ok.code }

/-- A request handed to RNU by LNK (R170, R193): with a place, it is checked and taken, and its response takes the place. -/
def remoteRequest (found : Option OpSpec) (tag : BitVec 16) (op : Byte) (args : List Byte) (s : State) : State :=
  if 32 ≤ occupancy s.fwd then
    setOffice .commandDropped (countFwd (fun c => { c with commandsDropped := c.commandsDropped + 1 }) s)
  else
    let r := serve found .office args (modFwd (fun f => { f with reserved := true }) s)
    modFwd (fun f => { f with reserved := false, control := f.control ++ [responseEntry tag op r.2] }) r.1

/-- A CONTROL REQUEST with a good CRC whose last byte arrives (R157): early in ALIGNING, and handed to RNU in UP. -/
def receiveRequest (found : Option OpSpec) (tag : BitVec 16) (op : Byte) (args : List Byte) (s : State) : State :=
  if framerRuns s && decide (s.lnk.framer = .framed) then
    let s1 := modLnk (fun l => { l with reception := none }) s
    if s.lnk.state = .up then
      remoteRequest found tag op args (countLnk (fun c => { c with accepted := c.accepted + 1 }) s1)
    else countLnk (fun c => { c with early := c.early + 1 }) s1
  else s

/-- A request of the command table, by its way in (R188). -/
def takeRequest (o : OpSpec) (via : Via) (args : List Byte) (s : State) : State :=
  match via with
  | .fall => beginTransaction (o.code :: args) s
  | .line => localRequest (some o) args s
  | .office tag => receiveRequest (some o) tag o.code args s

/-! ## Received frames (R157) -/

/-- The frame in reception ends with a CRC failure. -/
def crcFailure (s : State) : State :=
  modLnk (fun l => { l with reception := none, counters := { l.counters with crcErrors := l.counters.crcErrors + 1 } }) s

/-- A CONTROL frame with a good CRC whose control kind is not REQUEST (R157, R200, log entry 14). -/
def wrongControlKind (s : State) : State :=
  modLnk (fun l => { l with reception := none, counters := { l.counters with wrongKind := l.counters.wrongKind + 1 } }) s

/-- The content of a CONTROL frame: kind byte, tag, operation, body length, body (R200). -/
def takeControlFrame (content : List Byte) (crc : BitVec 32) (s : State) : State :=
  if crc32 content ≠ crc then crcFailure s
  else if content.getD 0 0 ≠ 0 then wrongControlKind s
  else
    let op := content.getD 3 0
    receiveRequest (lookupOp op) (BitVec.ofNat 16 (argNat content 1 2)) op (content.drop 5) s

/-- An IDLE frame (R157, R158). -/
def takeIdleFrame (content : List Byte) (crc : BitVec 32) (s : State) : State :=
  if crc32 content ≠ crc then crcFailure s
  else takeFarState (farOf content) (modLnk (fun l => { l with reception := none }) s)

/-- FRAME_RECEIVED (R157): the last byte of the frame in reception arrives. Content of another length than that frame's is
no frame of it, and changes nothing (log entry 9). -/
def takeFrame (content : List Byte) (crc : BitVec 32) (s : State) : State :=
  if framerRuns s && decide (s.lnk.framer = .framed) then
    match s.lnk.reception with
    | none => s
    | some .idle => if content.length = 59 then takeIdleFrame content crc s else s
    | some .header =>
      if content.length = 5 + (content.getD 4 0).toNat ∧ (content.getD 4 0).toNat ≤ 240 then
        takeControlFrame content crc s else s
    | some (.control n) => if content.length = 5 + n then takeControlFrame content crc s else s
  else s

/-! ## Device reset (R198) -/

/-- The end of a device reset (R20, R23, R167, R198): straps and pins are sampled, the link may enter ALIGNING, and the
transmitter begins. -/
def bootUp (s : State) : State :=
  let s1 := deviceReset {} s
  let s2 := (s1.setPosu (strapped s.pins.psel1 s.pins.psel0 s1.posu)).setCapu (s1.capu.sampled s.pins)
  startFill (alignIfLit s2)

/-- The holds left when a cause ends. -/
def ResetHold.without (h : ResetHold) : ResetCause → ResetHold
  | .power => { h with power := false }
  | .rst => { h with rst := false }
  | .request => { h with request := none }

/-- RESET_END (R198): a cause ends, and the reset ends with the last of them. -/
def takeResetEnd (c : ResetCause) (s : State) : State :=
  if inReset s then
    let s1 := { s with hold := s.hold.without c }
    if inReset s1 then s1 else bootUp s1
  else s

/-! ## Timer events that are due (log entry 1) -/

/-- A list of one event if a test holds. -/
def eventIf (b : Bool) (c : Instr) : List Instr := if b then [c] else []

/-- The filter time of an input has passed (R23). -/
def filterDue (s : State) (i : CaptureInput) : Bool := timerDue s.stamp ((s.capu.input i).pendingEdge.map (·.due))

/-- The silence test of R14 is met. -/
def silenceDue (s : State) : Bool := timerDue s.stamp ((silenceArmed s).map (silenceEnd s))

/-- The timer events of channel and port `n` that are due (R66, R84). -/
def unitDue (s : State) (n : Unit8) : List Instr :=
  eventIf (timerDue s.stamp (s.chan n).trigger) (.triggerPulseEnd n) ++
    (match (s.chan n).strobe with
      | .low => []
      | .delaying t _ => eventIf (timeUp s.stamp t) (.strobeDelayEnd n)
      | .high t => eventIf (timeUp s.stamp t) (.strobePulseEnd n)) ++
    eventIf ((s.port n).current.isSome && timerDue s.stamp (s.port n).windowEnd) (.frameWindowExpiry n)

/-- The timer events that are due at the present stamp. -/
def dueEvents (s : State) : List Instr :=
  if inReset s then eventIf (decide (s.hold.request = some 0)) (.resetEnd .request)
  else
    eventIf (decide (generatorWait s.posu = some 0)) .generatorCount ++
      eventIf (timerDue s.stamp (s.posu.pendingSwitch.bind (·.deadline))) .switchDeadline ++
      eventIf (silenceDue s) .silenceExpiry ++
      eventIf (timeUp s.stamp s.posu.intervalEnd) .speedIntervalEnd ++
      ([CaptureInput.item, .aux1, .aux2, .stop].filter (filterDue s)).map .filterExpiry ++
      eventIf (timerDue s.stamp s.trgu.eject.upTo) .ejectPulseEnd ++
      units.flatMap (unitDue s) ++
      eventIf (timerDue s.stamp s.lnk.hold) .retrainHoldEnd ++
      eventIf (s.lnk.tx.counts && decide (sendWait s.lnk = 0)) .transmitFrameEnd

/-- What the part does with no command waiting: of the timer events that are due it takes one, in an order the spec leaves
open; with none due, one stamp unit passes. The events still due are looked for again at the next step, so that one which
this event has made idle, or has given a later end, is not taken (log entries 1 and 2). -/
def whenIdle (s : State) : Option Instr × State :=
  match dueEvents s with
  | [] => (none, elapse 1 s)
  | [c] => (some c, s)
  | c :: d :: t => ((c :: d :: t)[Config.orderChoice s.orderIndex % (t.length + 2)]?, s.choseOrder 1)

end Sys2Proof.Machine
end

