-- ==== Sys2Proof/Machine/Requests.lean ====
section
/-! DEFINITION. The meanings of the 57 requests, one definition each over the two request paths (R188 to R193). A request
of LINE is one local transaction, or its beginning alone, and a request of OFFICE is the arrival of its CONTROL REQUEST frame
(log entry 8). -/

namespace Sys2Proof.Machine

/-- The outcome of every command: a next state. -/
abbrev Effect := Host.Outcome State Fault Refusal

/-- NOP (R190). -/
def execNop (via : Via) (args : List Byte) (s : State) : Effect := .next (takeRequest opNop via args s)

/-- READ_STATUS (R194). -/
def execReadStatus (via : Via) (args : List Byte) (s : State) : Effect := .next (takeRequest opReadStatus via args s)

/-- SET_NOTICE_MASK (R195). -/
def execSetNoticeMask (via : Via) (args : List Byte) (s : State) : Effect := .next (takeRequest opSetNoticeMask via args s)

/-- RESET_DEVICE (R198). -/
def execResetDevice (via : Via) (args : List Byte) (s : State) : Effect := .next (takeRequest opResetDevice via args s)

/-- READ_POSITION (R21). -/
def execReadPosition (via : Via) (args : List Byte) (s : State) : Effect := .next (takeRequest opReadPosition via args s)

/-- READ_POSITION_CONFIG (R22). -/
def execReadPositionConfig (via : Via) (args : List Byte) (s : State) : Effect := .next (takeRequest opReadPositionConfig via args s)

/-- SET_POSITION_CONFIG (R6). -/
def execSetPositionConfig (via : Via) (args : List Byte) (s : State) : Effect := .next (takeRequest opSetPositionConfig via args s)

/-- SELECT_SOURCE (R7). -/
def execSelectSource (via : Via) (args : List Byte) (s : State) : Effect := .next (takeRequest opSelectSource via args s)

/-- ABORT_SWITCH (R8). -/
def execAbortSwitch (via : Via) (args : List Byte) (s : State) : Effect := .next (takeRequest opAbortSwitch via args s)

/-- SET_SPEED (R17). -/
def execSetSpeed (via : Via) (args : List Byte) (s : State) : Effect := .next (takeRequest opSetSpeed via args s)

/-- READ_INPUTS (R29). -/
def execReadInputs (via : Via) (args : List Byte) (s : State) : Effect := .next (takeRequest opReadInputs via args s)

/-- SET_INPUT (R25). -/
def execSetInput (via : Via) (args : List Byte) (s : State) : Effect := .next (takeRequest opSetInput via args s)

/-- READ_CAPTURE (R28). -/
def execReadCapture (via : Via) (args : List Byte) (s : State) : Effect := .next (takeRequest opReadCapture via args s)

/-- READ_ITEM (R47). -/
def execReadItem (via : Via) (args : List Byte) (s : State) : Effect := .next (takeRequest opReadItem via args s)

/-- LIST_ITEMS (R48). -/
def execListItems (via : Via) (args : List Byte) (s : State) : Effect := .next (takeRequest opListItems via args s)

/-- READ_ITEM_GEOMETRY (R49). -/
def execReadItemGeometry (via : Via) (args : List Byte) (s : State) : Effect := .next (takeRequest opReadItemGeometry via args s)

/-- SET_ITEM_GEOMETRY (R46). -/
def execSetItemGeometry (via : Via) (args : List Byte) (s : State) : Effect := .next (takeRequest opSetItemGeometry via args s)

/-- DECLARE_ITEM (R41). -/
def execDeclareItem (via : Via) (args : List Byte) (s : State) : Effect := .next (takeRequest opDeclareItem via args s)

/-- TAG_ITEM (R42). -/
def execTagItem (via : Via) (args : List Byte) (s : State) : Effect := .next (takeRequest opTagItem via args s)

/-- WITHDRAW_ITEM (R43). -/
def execWithdrawItem (via : Via) (args : List Byte) (s : State) : Effect := .next (takeRequest opWithdrawItem via args s)

/-- READ_CHANNEL (R74). -/
def execReadChannel (via : Via) (args : List Byte) (s : State) : Effect := .next (takeRequest opReadChannel via args s)

/-- SET_CHANNEL (R52). -/
def execSetChannel (via : Via) (args : List Byte) (s : State) : Effect := .next (takeRequest opSetChannel via args s)

/-- SET_PULSE (R53). -/
def execSetPulse (via : Via) (args : List Byte) (s : State) : Effect := .next (takeRequest opSetPulse via args s)

/-- PLAN_ITEM (R54). -/
def execPlanItem (via : Via) (args : List Byte) (s : State) : Effect := .next (takeRequest opPlanItem via args s)

/-- RUN_PITCH (R55). -/
def execRunPitch (via : Via) (args : List Byte) (s : State) : Effect := .next (takeRequest opRunPitch via args s)

/-- SHOOT_COUNT (R56). -/
def execShootCount (via : Via) (args : List Byte) (s : State) : Effect := .next (takeRequest opShootCount via args s)

/-- RUN_UNTIL (R57). -/
def execRunUntil (via : Via) (args : List Byte) (s : State) : Effect := .next (takeRequest opRunUntil via args s)

/-- HALT_SOFT (R67). -/
def execHaltSoft (via : Via) (args : List Byte) (s : State) : Effect := .next (takeRequest opHaltSoft via args s)

/-- HALT_HARD (R67). -/
def execHaltHard (via : Via) (args : List Byte) (s : State) : Effect := .next (takeRequest opHaltHard via args s)

/-- READ_EJECT (R73). -/
def execReadEject (via : Via) (args : List Byte) (s : State) : Effect := .next (takeRequest opReadEject via args s)

/-- SET_EJECT (R73). -/
def execSetEject (via : Via) (args : List Byte) (s : State) : Effect := .next (takeRequest opSetEject via args s)

/-- READ_PORT (R95). -/
def execReadPort (via : Via) (args : List Byte) (s : State) : Effect := .next (takeRequest opReadPort via args s)

/-- SET_PORT (R78). -/
def execSetPort (via : Via) (args : List Byte) (s : State) : Effect := .next (takeRequest opSetPort via args s)

/-- ENABLE_PORT (R79). -/
def execEnablePort (via : Via) (args : List Byte) (s : State) : Effect := .next (takeRequest opEnablePort via args s)

/-- DISABLE_PORT (R80). -/
def execDisablePort (via : Via) (args : List Byte) (s : State) : Effect := .next (takeRequest opDisablePort via args s)

/-- RESET_PORT (R96). -/
def execResetPort (via : Via) (args : List Byte) (s : State) : Effect := .next (takeRequest opResetPort via args s)

/-- READ_CONVERSION (R113). -/
def execReadConversion (via : Via) (args : List Byte) (s : State) : Effect := .next (takeRequest opReadConversion via args s)

/-- SET_CONVERSION (R100). -/
def execSetConversion (via : Via) (args : List Byte) (s : State) : Effect := .next (takeRequest opSetConversion via args s)

/-- SET_PREVIEW (R108). -/
def execSetPreview (via : Via) (args : List Byte) (s : State) : Effect := .next (takeRequest opSetPreview via args s)

/-- READ_FRAME (R132). -/
def execReadFrame (via : Via) (args : List Byte) (s : State) : Effect := .next (takeRequest opReadFrame via args s)

/-- READ_STORE (R133). -/
def execReadStore (via : Via) (args : List Byte) (s : State) : Effect := .next (takeRequest opReadStore via args s)

/-- HOLD (R128). -/
def execHold (via : Via) (args : List Byte) (s : State) : Effect := .next (takeRequest opHold via args s)

/-- RELEASE (R129). -/
def execRelease (via : Via) (args : List Byte) (s : State) : Effect := .next (takeRequest opRelease via args s)

/-- DISCARD (R130). -/
def execDiscard (via : Via) (args : List Byte) (s : State) : Effect := .next (takeRequest opDiscard via args s)

/-- CLEAR_STORE (R131). -/
def execClearStore (via : Via) (args : List Byte) (s : State) : Effect := .next (takeRequest opClearStore via args s)

/-- SET_LOW_WATER (R116). -/
def execSetLowWater (via : Via) (args : List Byte) (s : State) : Effect := .next (takeRequest opSetLowWater via args s)

/-- VERDICT (R135). -/
def execVerdict (via : Via) (args : List Byte) (s : State) : Effect := .next (takeRequest opVerdict via args s)

/-- OVERRIDE (R136). -/
def execOverride (via : Via) (args : List Byte) (s : State) : Effect := .next (takeRequest opOverride via args s)

/-- SET_HOLD_REJECTED (R142). -/
def execSetHoldRejected (via : Via) (args : List Byte) (s : State) : Effect := .next (takeRequest opSetHoldRejected via args s)

/-- READ_RETIREMENTS (R146). -/
def execReadRetirements (via : Via) (args : List Byte) (s : State) : Effect := .next (takeRequest opReadRetirements via args s)

/-- READ_LINK (R166). -/
def execReadLink (via : Via) (args : List Byte) (s : State) : Effect := .next (takeRequest opReadLink via args s)

/-- RETRAIN_LINK (R164). -/
def execRetrainLink (via : Via) (args : List Byte) (s : State) : Effect := .next (takeRequest opRetrainLink via args s)

/-- READ_FORWARD (R185). -/
def execReadForward (via : Via) (args : List Byte) (s : State) : Effect := .next (takeRequest opReadForward via args s)

/-- CREDIT (R171). -/
def execCredit (via : Via) (args : List Byte) (s : State) : Effect := .next (takeRequest opCredit via args s)

/-- PULL (R178). -/
def execPull (via : Via) (args : List Byte) (s : State) : Effect := .next (takeRequest opPull via args s)

/-- CANCEL_PULL (R180). -/
def execCancelPull (via : Via) (args : List Byte) (s : State) : Effect := .next (takeRequest opCancelPull via args s)

/-- SET_AUTO_FULL (R181). -/
def execSetAutoFull (via : Via) (args : List Byte) (s : State) : Effect := .next (takeRequest opSetAutoFull via args s)

end Sys2Proof.Machine
end

