-- ==== Sys2Proof/Machine/Events.lean ====
section
/-! DEFINITION. The meanings of the events on the part's pins, receivers, timers and links, one definition each. -/

namespace Sys2Proof.Machine

/-- QUAD_EDGE (R2). -/
def execQuadEdge (a b : Bool) (s : State) : Effect := .next (takeQuadEdge a b s)

/-- STEP_EDGE (R3). -/
def execStepEdge (dirHigh : Bool) (s : State) : Effect := .next (takeStepEdge dirHigh s)

/-- GENERATOR_COUNT (R4). -/
def execGeneratorCount (s : State) : Effect := .next (takeGeneratorCount s)

/-- SWITCH_DEADLINE (R11). -/
def execSwitchDeadline (s : State) : Effect := .next (takeSwitchDeadline s)

/-- SILENCE_EXPIRY (R14). -/
def execSilenceExpiry (s : State) : Effect := .next (takeSilenceExpiry s)

/-- SPEED_INTERVAL_END (R13). -/
def execSpeedIntervalEnd (s : State) : Effect := .next (takeIntervalEnd s)

/-- CAPTURE_PIN_CHANGE (R23). -/
def execCapturePinChange (input : CaptureInput) (level : Level) (s : State) : Effect := .next (takePinChange input level s)

/-- FILTER_EXPIRY (R23). -/
def execFilterExpiry (input : CaptureInput) (s : State) : Effect := .next (takeFilterExpiry input s)

/-- EJECT_PULSE_END (R72). -/
def execEjectPulseEnd (s : State) : Effect := .next (takeEjectEnd s)

/-- TRIGGER_PULSE_END (R66). -/
def execTriggerPulseEnd (n : Unit8) (s : State) : Effect := .next (takeTriggerEnd n s)

/-- STROBE_DELAY_END (R66). -/
def execStrobeDelayEnd (n : Unit8) (s : State) : Effect := .next (takeStrobeDelayEnd n s)

/-- STROBE_PULSE_END (R66). -/
def execStrobePulseEnd (n : Unit8) (s : State) : Effect := .next (takeStrobeEnd n s)

/-- LOCK_GAINED (R90). -/
def execLockGained (n : Unit8) (s : State) : Effect := .next (takeLockGained n s)

/-- LOCK_LOST (R89). -/
def execLockLost (n : Unit8) (s : State) : Effect := .next (takeLockLost n s)

/-- FS_WORD (R82). -/
def execFsWord (n : Unit8) (counter : BitVec 16) (s : State) : Effect := .next (takeFs n counter s)

/-- LN_WORD (R87). -/
def execLnWord (n : Unit8) (samples : List (BitVec 14)) (s : State) : Effect := .next (takeLn n samples s)

/-- FE_WORD (R88). -/
def execFeWord (n : Unit8) (s : State) : Effect := .next (takeFe n s)

/-- FRAME_WINDOW_EXPIRY (R84). -/
def execFrameWindowExpiry (n : Unit8) (s : State) : Effect := .next (takeWindowExpiry n s)

/-- LIGHT_GAINED (R151). -/
def execLightGained (s : State) : Effect := .next (takeLightGained s)

/-- LIGHT_LOST (R151). -/
def execLightLost (s : State) : Effect := .next (takeLightLost s)

/-- RECEIVED_DELIMITER (R153). -/
def execReceivedDelimiter (found : Option Delimiter) (s : State) : Effect := .next (takeDelimiter found s)

/-- HUNT_DELIMITER_FOUND (R154). -/
def execHuntDelimiterFound (found : Delimiter) (s : State) : Effect := .next (takeHuntDelimiter found s)

/-- HUNT_SPAN_EXPIRY (R154). -/
def execHuntSpanExpiry (s : State) : Effect := .next (takeHuntSpan s)

/-- CONTROL_HEADER_RECEIVED (R153). -/
def execControlHeaderReceived (length : Byte) (s : State) : Effect := .next (takeControlHeader length s)

/-- FRAME_RECEIVED (R157). -/
def execFrameReceived (content : List Byte) (crc : BitVec 32) (s : State) : Effect := .next (takeFrame content crc s)

/-- RETRAIN_HOLD_END (R164). -/
def execRetrainHoldEnd (s : State) : Effect := .next (takeHoldEnd s)

/-- TRANSMIT_FRAME_END (R152). -/
def execTransmitFrameEnd (s : State) : Effect := .next (takeFrameEnd s)

/-- POWER_ON (R198). The part is held until the supplies are good, and then while RST is low. -/
def execPowerOn (rstLow : Bool) (s : State) : Effect := .next (deviceReset { power := true, rst := rstLow } s)

/-- RST_ASSERTED (R198). RST falls; a reset begun by RESET_DEVICE runs on under it. -/
def execRstAsserted (s : State) : Effect := .next (deviceReset { s.hold with rst := true } s)

/-- RESET_END (R198). -/
def execResetEnd (cause : ResetCause) (s : State) : Effect := .next (takeResetEnd cause s)

/-- UNKNOWN_OPERATION (R188). Where the table does know the operation, it is that request. -/
def execUnknownOperation (op : Byte) (args : List Byte) (s : State) : Effect := .next (localRequest (lookupOp op) args s)

end Sys2Proof.Machine
end

