-- ==== Sys2Proof/Machine/Dispatch.lean ====
section
/-! DEFINITION. One arm for each command. -/

namespace Sys2Proof.Machine

/-- The effect of a command on everything but the queue. -/
def exec (i : Instr) (s : State) : Host.Outcome State Fault Refusal :=
  match i with
  | .nop via args => Sys2Proof.Machine.execNop via args s
  | .readStatus via args => Sys2Proof.Machine.execReadStatus via args s
  | .setNoticeMask via args => Sys2Proof.Machine.execSetNoticeMask via args s
  | .resetDevice via args => Sys2Proof.Machine.execResetDevice via args s
  | .readPosition via args => Sys2Proof.Machine.execReadPosition via args s
  | .readPositionConfig via args => Sys2Proof.Machine.execReadPositionConfig via args s
  | .setPositionConfig via args => Sys2Proof.Machine.execSetPositionConfig via args s
  | .selectSource via args => Sys2Proof.Machine.execSelectSource via args s
  | .abortSwitch via args => Sys2Proof.Machine.execAbortSwitch via args s
  | .setSpeed via args => Sys2Proof.Machine.execSetSpeed via args s
  | .readInputs via args => Sys2Proof.Machine.execReadInputs via args s
  | .setInput via args => Sys2Proof.Machine.execSetInput via args s
  | .readCapture via args => Sys2Proof.Machine.execReadCapture via args s
  | .readItem via args => Sys2Proof.Machine.execReadItem via args s
  | .listItems via args => Sys2Proof.Machine.execListItems via args s
  | .readItemGeometry via args => Sys2Proof.Machine.execReadItemGeometry via args s
  | .setItemGeometry via args => Sys2Proof.Machine.execSetItemGeometry via args s
  | .declareItem via args => Sys2Proof.Machine.execDeclareItem via args s
  | .tagItem via args => Sys2Proof.Machine.execTagItem via args s
  | .withdrawItem via args => Sys2Proof.Machine.execWithdrawItem via args s
  | .readChannel via args => Sys2Proof.Machine.execReadChannel via args s
  | .setChannel via args => Sys2Proof.Machine.execSetChannel via args s
  | .setPulse via args => Sys2Proof.Machine.execSetPulse via args s
  | .planItem via args => Sys2Proof.Machine.execPlanItem via args s
  | .runPitch via args => Sys2Proof.Machine.execRunPitch via args s
  | .shootCount via args => Sys2Proof.Machine.execShootCount via args s
  | .runUntil via args => Sys2Proof.Machine.execRunUntil via args s
  | .haltSoft via args => Sys2Proof.Machine.execHaltSoft via args s
  | .haltHard via args => Sys2Proof.Machine.execHaltHard via args s
  | .readEject via args => Sys2Proof.Machine.execReadEject via args s
  | .setEject via args => Sys2Proof.Machine.execSetEject via args s
  | .readPort via args => Sys2Proof.Machine.execReadPort via args s
  | .setPort via args => Sys2Proof.Machine.execSetPort via args s
  | .enablePort via args => Sys2Proof.Machine.execEnablePort via args s
  | .disablePort via args => Sys2Proof.Machine.execDisablePort via args s
  | .resetPort via args => Sys2Proof.Machine.execResetPort via args s
  | .readConversion via args => Sys2Proof.Machine.execReadConversion via args s
  | .setConversion via args => Sys2Proof.Machine.execSetConversion via args s
  | .setPreview via args => Sys2Proof.Machine.execSetPreview via args s
  | .readFrame via args => Sys2Proof.Machine.execReadFrame via args s
  | .readStore via args => Sys2Proof.Machine.execReadStore via args s
  | .hold via args => Sys2Proof.Machine.execHold via args s
  | .release via args => Sys2Proof.Machine.execRelease via args s
  | .discard via args => Sys2Proof.Machine.execDiscard via args s
  | .clearStore via args => Sys2Proof.Machine.execClearStore via args s
  | .setLowWater via args => Sys2Proof.Machine.execSetLowWater via args s
  | .verdict via args => Sys2Proof.Machine.execVerdict via args s
  | .override via args => Sys2Proof.Machine.execOverride via args s
  | .setHoldRejected via args => Sys2Proof.Machine.execSetHoldRejected via args s
  | .readRetirements via args => Sys2Proof.Machine.execReadRetirements via args s
  | .readLink via args => Sys2Proof.Machine.execReadLink via args s
  | .retrainLink via args => Sys2Proof.Machine.execRetrainLink via args s
  | .readForward via args => Sys2Proof.Machine.execReadForward via args s
  | .credit via args => Sys2Proof.Machine.execCredit via args s
  | .pull via args => Sys2Proof.Machine.execPull via args s
  | .cancelPull via args => Sys2Proof.Machine.execCancelPull via args s
  | .setAutoFull via args => Sys2Proof.Machine.execSetAutoFull via args s
  | .quadEdge a b => Sys2Proof.Machine.execQuadEdge a b s
  | .stepEdge dirHigh => Sys2Proof.Machine.execStepEdge dirHigh s
  | .generatorCount => Sys2Proof.Machine.execGeneratorCount s
  | .switchDeadline => Sys2Proof.Machine.execSwitchDeadline s
  | .silenceExpiry => Sys2Proof.Machine.execSilenceExpiry s
  | .speedIntervalEnd => Sys2Proof.Machine.execSpeedIntervalEnd s
  | .capturePinChange input level => Sys2Proof.Machine.execCapturePinChange input level s
  | .filterExpiry input => Sys2Proof.Machine.execFilterExpiry input s
  | .ejectPulseEnd => Sys2Proof.Machine.execEjectPulseEnd s
  | .triggerPulseEnd n => Sys2Proof.Machine.execTriggerPulseEnd n s
  | .strobeDelayEnd n => Sys2Proof.Machine.execStrobeDelayEnd n s
  | .strobePulseEnd n => Sys2Proof.Machine.execStrobePulseEnd n s
  | .lockGained n => Sys2Proof.Machine.execLockGained n s
  | .lockLost n => Sys2Proof.Machine.execLockLost n s
  | .fsWord n counter => Sys2Proof.Machine.execFsWord n counter s
  | .lnWord n samples => Sys2Proof.Machine.execLnWord n samples s
  | .feWord n => Sys2Proof.Machine.execFeWord n s
  | .frameWindowExpiry n => Sys2Proof.Machine.execFrameWindowExpiry n s
  | .lightGained => Sys2Proof.Machine.execLightGained s
  | .lightLost => Sys2Proof.Machine.execLightLost s
  | .receivedDelimiter found => Sys2Proof.Machine.execReceivedDelimiter found s
  | .huntDelimiterFound found => Sys2Proof.Machine.execHuntDelimiterFound found s
  | .huntSpanExpiry => Sys2Proof.Machine.execHuntSpanExpiry s
  | .controlHeaderReceived length => Sys2Proof.Machine.execControlHeaderReceived length s
  | .frameReceived content crc => Sys2Proof.Machine.execFrameReceived content crc s
  | .retrainHoldEnd => Sys2Proof.Machine.execRetrainHoldEnd s
  | .transmitFrameEnd => Sys2Proof.Machine.execTransmitFrameEnd s
  | .powerOn rstLow => Sys2Proof.Machine.execPowerOn rstLow s
  | .rstAsserted => Sys2Proof.Machine.execRstAsserted s
  | .resetEnd cause => Sys2Proof.Machine.execResetEnd cause s
  | .unknownOperation op args => Sys2Proof.Machine.execUnknownOperation op args s

end Sys2Proof.Machine
end

