-- ==== Sys2Proof/Machine/Step.lean ====
section
/-! DEFINITION. One step of the block, and the place where a command waits. -/

namespace Sys2Proof.Machine

/-- One step: the command at the front of the queue is taken with the queue's rest; with no command waiting the part's own
time goes on, by a timer event that is due or by one stamp unit (log entry 1). -/
def step (s : State) : Host.Outcome State Fault Refusal :=
  match s.pending with
  | [] =>
    match whenIdle s with
    | (some c, t) => exec c t
    | (none, t) => .next t
  | c :: rest => exec c { s with pending := rest }

/-- The command that a word spells, put at the front of the queue; a word that spells none leaves the state as it is. -/
def State.withFetchWord (s : State) (nbits w : Nat) : State :=
  match decodeTableWord nbits w with
  | none => s
  | some c => { s with pending := c :: s.pending }

end Sys2Proof.Machine
end

