-- ==== Sys2Proof/WellFormed.lean ====
section
/-! DEFINITION. Commands that some sender can send: the lengths and codes that the wire allows. The machine has a meaning for
every other command as well; the check names those that no sender makes. -/

namespace Sys2Proof

/-- The operation bytes of the command table (R192). -/
def commandCodes : List Nat :=
  [0x00, 0x01, 0x02, 0x03, 0x10, 0x11, 0x12, 0x13, 0x14, 0x15, 0x18, 0x19, 0x1A] ++
  [0x20, 0x21, 0x22, 0x23, 0x24, 0x25, 0x26] ++
  [0x30, 0x31, 0x32, 0x33, 0x34, 0x35, 0x36, 0x37, 0x38, 0x39, 0x3A] ++
  [0x40, 0x41, 0x42, 0x43, 0x44, 0x48, 0x49, 0x4A] ++
  [0x50, 0x51, 0x52, 0x53, 0x54, 0x55, 0x56, 0x60, 0x61, 0x62, 0x63] ++
  [0x68, 0x69, 0x70, 0x71, 0x72, 0x73, 0x74]

/-- The way in and the arguments of a request, or none for an event. -/
def Instr.request? : Instr → Option (Via × List Byte)
  | .nop v a => some (v, a)
  | .readStatus v a => some (v, a)
  | .setNoticeMask v a => some (v, a)
  | .resetDevice v a => some (v, a)
  | .readPosition v a => some (v, a)
  | .readPositionConfig v a => some (v, a)
  | .setPositionConfig v a => some (v, a)
  | .selectSource v a => some (v, a)
  | .abortSwitch v a => some (v, a)
  | .setSpeed v a => some (v, a)
  | .readInputs v a => some (v, a)
  | .setInput v a => some (v, a)
  | .readCapture v a => some (v, a)
  | .readItem v a => some (v, a)
  | .listItems v a => some (v, a)
  | .readItemGeometry v a => some (v, a)
  | .setItemGeometry v a => some (v, a)
  | .declareItem v a => some (v, a)
  | .tagItem v a => some (v, a)
  | .withdrawItem v a => some (v, a)
  | .readChannel v a => some (v, a)
  | .setChannel v a => some (v, a)
  | .setPulse v a => some (v, a)
  | .planItem v a => some (v, a)
  | .runPitch v a => some (v, a)
  | .shootCount v a => some (v, a)
  | .runUntil v a => some (v, a)
  | .haltSoft v a => some (v, a)
  | .haltHard v a => some (v, a)
  | .readEject v a => some (v, a)
  | .setEject v a => some (v, a)
  | .readPort v a => some (v, a)
  | .setPort v a => some (v, a)
  | .enablePort v a => some (v, a)
  | .disablePort v a => some (v, a)
  | .resetPort v a => some (v, a)
  | .readConversion v a => some (v, a)
  | .setConversion v a => some (v, a)
  | .setPreview v a => some (v, a)
  | .readFrame v a => some (v, a)
  | .readStore v a => some (v, a)
  | .hold v a => some (v, a)
  | .release v a => some (v, a)
  | .discard v a => some (v, a)
  | .clearStore v a => some (v, a)
  | .setLowWater v a => some (v, a)
  | .verdict v a => some (v, a)
  | .override v a => some (v, a)
  | .setHoldRejected v a => some (v, a)
  | .readRetirements v a => some (v, a)
  | .readLink v a => some (v, a)
  | .retrainLink v a => some (v, a)
  | .readForward v a => some (v, a)
  | .credit v a => some (v, a)
  | .pull v a => some (v, a)
  | .cancelPull v a => some (v, a)
  | .setAutoFull v a => some (v, a)
  | _ => none

/-- A request of OFFICE has a body of at most 240 bytes (R200). -/
def requestFits : Option (Via × List Byte) → Bool
  | some (.office _, args) => decide (args.length ≤ 240)
  | _ => true

/-- The content of a received frame is that of an IDLE frame or of a CONTROL frame with the body its header gives (R200). -/
def contentFits (content : List Byte) : Bool :=
  decide (content.length = 59) ||
    (decide (content.length = 5 + (content.getD 4 0).toNat) && decide ((content.getD 4 0).toNat ≤ 240))

/-- A command that some sender can send. -/
def Instr.wf (i : Instr) : Bool :=
  requestFits i.request? &&
    match i with
    | .unknownOperation op _ => !commandCodes.contains op.toNat
    | .frameReceived content _ => contentFits content
    | _ => true

end Sys2Proof
end

