-- ==== Sys2Proof/Safety.lean ====
section
/-! DEFINITION. What the statements speak of: outcomes that go on, requests served, and the bounds that every step keeps. -/

namespace Sys2Proof.Machine

/-! ## Outcomes -/

/-- An outcome that is a next state. -/
def Continues (o : Host.Outcome State Fault Refusal) : Prop := ∃ t, o = .next t

/-- Every command has a next state in every state. -/
def ExecSafe : Prop := ∀ i s, Continues (exec i s)

/-- The machine never stops. -/
def StepSafe : Prop := ∀ s, Continues (step s)

/-! ## Requests -/

/-- The row of the command table that a request is (R192); none for an event. -/
def rowOf : Instr → Option OpSpec
  | .nop _ _ => some opNop
  | .readStatus _ _ => some opReadStatus
  | .setNoticeMask _ _ => some opSetNoticeMask
  | .resetDevice _ _ => some opResetDevice
  | .readPosition _ _ => some opReadPosition
  | .readPositionConfig _ _ => some opReadPositionConfig
  | .setPositionConfig _ _ => some opSetPositionConfig
  | .selectSource _ _ => some opSelectSource
  | .abortSwitch _ _ => some opAbortSwitch
  | .setSpeed _ _ => some opSetSpeed
  | .readInputs _ _ => some opReadInputs
  | .setInput _ _ => some opSetInput
  | .readCapture _ _ => some opReadCapture
  | .readItem _ _ => some opReadItem
  | .listItems _ _ => some opListItems
  | .readItemGeometry _ _ => some opReadItemGeometry
  | .setItemGeometry _ _ => some opSetItemGeometry
  | .declareItem _ _ => some opDeclareItem
  | .tagItem _ _ => some opTagItem
  | .withdrawItem _ _ => some opWithdrawItem
  | .readChannel _ _ => some opReadChannel
  | .setChannel _ _ => some opSetChannel
  | .setPulse _ _ => some opSetPulse
  | .planItem _ _ => some opPlanItem
  | .runPitch _ _ => some opRunPitch
  | .shootCount _ _ => some opShootCount
  | .runUntil _ _ => some opRunUntil
  | .haltSoft _ _ => some opHaltSoft
  | .haltHard _ _ => some opHaltHard
  | .readEject _ _ => some opReadEject
  | .setEject _ _ => some opSetEject
  | .readPort _ _ => some opReadPort
  | .setPort _ _ => some opSetPort
  | .enablePort _ _ => some opEnablePort
  | .disablePort _ _ => some opDisablePort
  | .resetPort _ _ => some opResetPort
  | .readConversion _ _ => some opReadConversion
  | .setConversion _ _ => some opSetConversion
  | .setPreview _ _ => some opSetPreview
  | .readFrame _ _ => some opReadFrame
  | .readStore _ _ => some opReadStore
  | .hold _ _ => some opHold
  | .release _ _ => some opRelease
  | .discard _ _ => some opDiscard
  | .clearStore _ _ => some opClearStore
  | .setLowWater _ _ => some opSetLowWater
  | .verdict _ _ => some opVerdict
  | .override _ _ => some opOverride
  | .setHoldRejected _ _ => some opSetHoldRejected
  | .readRetirements _ _ => some opReadRetirements
  | .readLink _ _ => some opReadLink
  | .retrainLink _ _ => some opRetrainLink
  | .readForward _ _ => some opReadForward
  | .credit _ _ => some opCredit
  | .pull _ _ => some opPull
  | .cancelPull _ _ => some opCancelPull
  | .setAutoFull _ _ => some opSetAutoFull
  | _ => none

/-- A request that comes by `v` with the arguments `a` is the operation of a code, of its issuers, and of its argument bytes
(R192). -/
def IsRow (i : Instr) (v : Via) (a : List Byte) (code : Byte) (line office : Bool) (argBytes : Nat) : Prop :=
  (rowOf i).map (fun o => (o.code, o.forLine, o.forOffice, o.argBytes)) = some (code, line, office, argBytes) ∧
    i.request? = some (v, a)

/-- The master that issues a request (R188). -/
def issuer : Via → Master
  | .fall => .line
  | .line => .line
  | .office _ => .office

/-- The part takes a request that comes this way: it is out of device reset; CS_N rises, after a fall since the last one; and
for one of OFFICE the link is UP, the framer is at the frame, and the control queue has a place for the response (R157, R170,
R190, R198). -/
def CanServe : Via → State → Prop
  | .fall, _ => False
  | .line, s => inReset s = false ∧ (s.pins.csLow = true → s.rnu.transaction ≠ none)
  | .office _, s => inReset s = false ∧ s.lnk.state = .up ∧ s.lnk.framer = .framed ∧ occupancy s.fwd < 32

/-- The state in which a request is checked. At the local port CS_N has risen and the response buffer has been emptied (R190).
On the link the frame has been accepted and counted, and a place is reserved for its response (R157, R170). -/
def ready : Via → State → State
  | .fall, s => s
  | .line, s =>
    { s with pins := { s.pins with csLow := false }, rnu := { s.rnu with response := [], transaction := none } }
  | .office _, s =>
    (s.setLnk { s.lnk with
      reception := none, counters := { s.lnk.counters with accepted := s.lnk.counters.accepted + 1 } }).setFwd
      { s.fwd with reserved := true }

/-- The state after a request taken in state `s` by the operation `op`: `t` is the state its own effect leaves and `a` its
response. At the local port the response fills the buffer, and the transaction has shifted out what the buffer held and
then zeros (R190, R191). On the link the response joins the control queue in the place reserved (R170, R193). -/
def served (v : Via) (op : Byte) (args : List Byte) (s t : State) (a : Answer) : State :=
  match v with
  | .fall => t
  | .line => t.setRnu { t.rnu with response := a, shifted := miso s.rnu.response (1 + args.length) }
  | .office tag =>
    t.setFwd { t.fwd with reserved := false, control := t.fwd.control ++ [responseEntry tag op a] }

/-- A request is served: it is taken in `ready v s`, its own effect leaves `t`, and it is answered `a`. -/
def Serves (i : Instr) (v : Via) (op : Byte) (args : List Byte) (s t : State) (a : Answer) : Prop :=
  exec i s = .next (served v op args s t a)

/-! ## What every step keeps -/

/-- The store's bytes have their canonical form, and each view and mask holds flags of its own alone (R115, R194, R195). -/
def StoreAndViewsOk (s : State) : Prop :=
  memWf s.fsto.mem = true ∧ s.rnu.lineView &&& ~~~lineFlags = 0 ∧ s.rnu.officeView &&& ~~~officeFlags = 0 ∧
    s.rnu.lineMask &&& ~~~lineFlags = 0 ∧ s.rnu.officeMask &&& ~~~officeFlags = 0

/-- POSU (R4 to R17): every setting in its range; a pending switch to another source than the active one, with a count of at
most QUAL_COUNT; a monitor exactly while QUAD or STEP is active; the measured speed that of the 8 kept intervals; and a
synthetic speed that SET_SPEED could write. -/
def PositionOk (p : Posu) : Prop :=
  (16 ≤ p.settings.qualCount ∧ p.settings.qualCount ≤ 4096 ∧ 10 ≤ p.settings.switchLimit ∧
    p.settings.switchLimit ≤ 10000 ∧ 1 ≤ p.settings.silenceWindow ∧ p.settings.silenceWindow ≤ 1000 ∧
    1 ≤ p.settings.faultLimit ∧ p.settings.faultLimit ≤ 15) ∧
  (∀ w, p.pendingSwitch = some w → w.target ≠ p.active ∧ w.count ≤ p.settings.qualCount) ∧
  (p.monitor.isSome = true ↔ p.active ≠ .synth) ∧
  (∀ m, p.monitor = some m → m.score ≤ 15 ∧ m.tally ≤ 1023 ∧ (125 : Int) ∣ m.reference) ∧
  p.intervals.length = 8 ∧ p.measuredSpeed = 125 * p.intervals.sum ∧
  (p.synthSpeed = 0 ∨ (10 ≤ p.synthSpeed ∧ p.synthSpeed ≤ 4000000))

/-- The blind list stands in the order in which a forward-running line will reach its entries from `now` (R44): by the number
of counts before the one that reaches each, positions wrapping (log entry 28). -/
def BlindOrder (now : Pos) (l : List Pos) : Prop := l.Pairwise fun p q => (p - now - 1).toNat ≤ (q - now - 1).toNat

/-- The aux FIFO, the item table, the blind list and the numbers have their bounds, the blind list has its order from the
position `now`, and the eject distance clears every item (R27, R31, R32, R44, R46). -/
def TableOk (now : Pos) (c : Capu) (t : Itab) : Prop :=
  c.fifo.length ≤ 16 ∧ c.dropped ≤ 65535 ∧ t.items.length ≤ 64 ∧ t.blind.length ≤ 8 ∧ t.assigned ≤ 8388608 ∧
  1 ≤ t.nextNumber ∧ t.nextNumber ≤ 16777215 ∧ 1 ≤ t.geometry.minGap ∧ 1 ≤ t.geometry.maxLength ∧
  t.geometry.maxLength < t.geometry.ejectDistance ∧ t.geometry.ejectDistance ≤ 1073741824 ∧ BlindOrder now t.blind

/-- A frame that FWD handed over is going out. -/
def Transmission.ofForwarder : Transmission → Prop
  | .silent => False
  | .breakFill => False
  | .idle _ _ _ => False
  | .control _ _ => True
  | .image _ => True

/-- LNK and FWD (R151 to R175, R183): outside UP there is no credit, no control frame, no transfer in flight, no pending
retrain and no frame of FWD going out; in DOWN the framer is stopped; a retrain hold is a hold in DOWN, and break fill is sent
exactly while it lasts; and every count has its bound. -/
def LinkOk (s : State) : Prop :=
  (s.lnk.state ≠ .up → s.fwd.credit = 0 ∧ s.fwd.control = [] ∧ s.fwd.fullLane = none ∧ s.fwd.previewLane = none ∧
    s.lnk.farAligned = false ∧ s.lnk.retrainPending = false ∧ ¬s.lnk.tx.ofForwarder) ∧
  (s.lnk.state = .down → s.lnk.framer = .hunting ∧ s.lnk.reception = none ∧ s.lnk.alignCount = 0 ∧ s.lnk.errorRun = 0) ∧
  (s.lnk.hold.isSome = true → s.lnk.state = .down) ∧ (s.lnk.tx = .breakFill ↔ s.lnk.hold.isSome = true) ∧
  s.fwd.reserved = false ∧ s.fwd.control.length ≤ 32 ∧ s.fwd.credit ≤ 255 ∧ s.fwd.fullRun ≤ 8 ∧
  s.lnk.idleDue ≤ 16 ∧ (s.lnk.tx.ofForwarder → s.lnk.idleDue ≤ 15) ∧ s.lnk.errorRun ≤ 3 ∧ s.lnk.alignCount ≤ 16 ∧
  (s.lnk.state = .aligning → s.lnk.alignCount ≤ 15)

/-- TRGU's queues and the table (R31, R59): item numbers are distinct; only the newest item may be ENTERING; the load of every
shot queue is at most 16; an item has at most one WINDOW_OPEN in a queue; every entry names a live item, and a WINDOW_CLOSE one
whose end is known. -/
def TriggersOk (s : State) : Prop :=
  (s.itab.items.map (·.number)).Nodup ∧ (∀ it ∈ s.itab.items.dropLast, it.state ≠ .entering) ∧
  ∀ n, let c := s.chan n
    load c ≤ 16 ∧ ((c.queue.filter fun e => decide (e.kind = .windowOpen)).map (·.item)).Nodup ∧
    ∀ e ∈ c.queue, ∃ it, findItem s e.item = some it ∧ (e.kind = .windowClose → it.state ≠ .entering)

/-- How far the start of an item lies ahead of the oldest item's. -/
def startOffset (t : Itab) (it : Item) : Nat :=
  match t.items.head? with
  | some o => (it.start - o.start).toNat
  | none => 0

/-- The starts rise from the oldest item to the newest by at least MIN_ITEM_GAP each (R31). -/
def StartsRise (t : Itab) : Prop := (t.items.map (startOffset t)).Pairwise fun a b => a + t.geometry.minGap ≤ b

/-- All starts lie within half the position range of the oldest, as R31 requires of its comparisons. -/
def WithinHalf (t : Itab) : Prop := ∀ it ∈ t.items, startOffset t it < 2 ^ 31

/-- A port with its channel and its packer (R51, R71, R76, R81, R91, R98): a current frame exactly in ARMED and RECEIVING, EXPECTED
in the one and FILLING in the other; the frame window timer runs exactly in ARMED, and the packer holds the frame's context
exactly in RECEIVING; an IDLE channel has nothing left; an AREA channel has AREA_SHOT entries and no window; and a SCAN port is
never ARMED, and is RECEIVING or DRAINING under a window. -/
def UnitOk (s : State) (n : Unit8) : Prop :=
  let c := s.chan n
  let p := s.port n
  (p.current.isSome = true ↔ p.state = .armed ∨ p.state = .receiving) ∧
  (∀ h, p.current = some h → ∃ r, recordAt s h = some r ∧ r.port = n ∧
    r.state = if p.state = .armed then .expected else .filling) ∧
  (p.windowEnd.isSome = true ↔ p.state = .armed) ∧
  (s.packer n).context.map (·.handle) = (if p.state = .receiving then p.current else none) ∧
  (c.state = .idle → c.plan = .off ∧ c.queue = [] ∧ c.freeRun = none ∧ c.window = none ∧ p.current = none) ∧
  (p.kind = .area → c.window = none ∧ ∀ e ∈ c.queue, e.kind = .areaShot) ∧
  (p.kind = .scan → p.state ≠ .armed ∧ (∀ e ∈ c.queue, e.kind ≠ .areaShot) ∧
    (p.state = .receiving → c.window.map (·.handle) = p.current) ∧ (p.state = .draining → c.window ≠ none))

/-- The blocks of a record: its full list and its preview list (R115). -/
def Slot.blocks (sl : Slot) : List Block :=
  match sl.record with
  | some r => r.fullBlocks ++ r.previewBlocks
  | none => []

/-- The catalogue (R76, R115, R121, R126): every block is in exactly one place; the age list holds each record that has ended
once, and no other; and every other record is the current frame of its port. -/
def CatalogueOk (s : State) : Prop :=
  (s.fsto.pool ++ s.fsto.slots.toList.flatMap Slot.blocks).Perm (blocksFrom 16384 0) ∧ s.fsto.age.Nodup ∧
  (∀ h, h ∈ s.fsto.age ↔ ∃ r, recordAt s h = some r ∧ r.state.finished = true) ∧
  (∀ h r, recordAt s h = some r → r.state.finished = false → (s.port r.port).current = some h) ∧ ∀ n, UnitOk s n

/-- FWD's image queues and lanes (R124, R172, R175, R177, R180): a handle stands in a queue once, and exactly while its part is
QUEUED or SENDING; the pull load is at most 64; only a frame in reception awaits its pull, and it has no preview state yet; a
part is SENDING exactly while its lane sends it, from the head of its queue; and a segment going out is its lane's. -/
def QueuesOk (s : State) : Prop :=
  (s.fwd.pull.map (·.handle)).Nodup ∧ (s.fwd.preview.map (·.handle)).Nodup ∧ pullLoad s ≤ 64 ∧
  (∀ h, h ∈ s.fwd.pull.map (·.handle) ↔ ∃ r, recordAt s h = some r ∧ (r.fullState = .queued ∨ r.fullState = .sending)) ∧
  (∀ h, h ∈ s.fwd.preview.map (·.handle) ↔
    ∃ r, recordAt s h = some r ∧ (r.previewState = .queued ∨ r.previewState = .sending)) ∧
  (∀ h r, recordAt s h = some r →
    (if r.state.finished = true then r.fullState ≠ .await ∧ r.previewState ≠ .none
      else (r.fullState = .none ∨ r.fullState = .await) ∧ r.previewState = .none) ∧
    (r.fullState = .sending → ∃ t, s.fwd.fullLane = some t ∧ t.handle = h ∧ t.abandoning = false) ∧
    (r.previewState = .sending → ∃ t, s.fwd.previewLane = some t ∧ t.handle = h)) ∧
  (∀ t, s.fwd.fullLane = some t → t.abandoning = false → s.fwd.pull.head?.map (·.handle) = some t.handle ∧
    ∃ r, recordAt s t.handle = some r ∧ r.fullState = .sending) ∧
  (∀ t, s.fwd.previewLane = some t → t.abandoning = false ∧ s.fwd.preview.head?.map (·.handle) = some t.handle ∧
    ∃ r, recordAt s t.handle = some r ∧ r.previewState = .sending) ∧
  ∀ g, s.lnk.tx = .image g → ∃ t, s.fwd.lane g.part = some t ∧ t.handle = g.handle ∧
    (g.abandoned = true → t.abandoning = true)

end Sys2Proof.Machine
end

