-- ==== Sys2Proof/Certificates/Slice0/Obligations.lean ====
section
/-! DEFINITION. The statements for the provers: what the spec's rules say of the commands and of the machine. -/

open Sys2Proof Sys2Proof.Machine

/-! ## One step, time and reset -/

/-- One step takes the command at the front of the queue, on the state with the queue's rest. -/
def Obligations.StepTakesTheFrontCommand : Prop :=
  ∀ (c : Instr) (rest : List Instr) (s : State),
    s.pending = c :: rest → step s = exec c { s with pending := rest }

/-- With no command waiting: where one timer event is due the part takes it, and of several it takes one, the order left open
(log entry 2); the others stay due only if their timers still say so. A timer event is due exactly when its timer's end has
come. With none due, the part out of reset lets one stamp unit pass: the stamp clock, the phase of the rate generator and the
byte positions sent go on, and nothing else changes; in device reset only the 10 µs of RESET_DEVICE run down. A timer's event
carries the clock forward to its end: where the stamp has passed it nothing changes, and otherwise the stamp is that end. This
is the model's own clock (log entry 1). -/
def Obligations.IdleStepsAndTimersMoveTheClock : Prop :=
  (∀ s : State, s.pending = [] →
    (inReset s = false → dueEvents s = [] →
      step s = .next { s with
        stamp := s.stamp + 1
        posu := { s.posu with genPhase := s.posu.genPhase + s.posu.synthSpeed }
        lnk := { s.lnk with txSent := s.lnk.txSent + if s.lnk.tx.counts then 12 else 0 } }) ∧
    (inReset s = true → dueEvents s = [] →
      step s = .next { s with hold := { s.hold with request := s.hold.request.map fun k => k - 1 } }) ∧
    (∀ c, dueEvents s = [c] → step s = exec c s) ∧
    (∀ c d l, dueEvents s = c :: d :: l →
      ∃ e ∈ dueEvents s, step s = exec e { s with orderIndex := s.orderIndex + 1 })) ∧
  (∀ s : State, inReset s = false → let due := fun c => c ∈ dueEvents s
    let ended := fun (t : Stamp) => timeUp s.stamp t = true
    (due .generatorCount ↔ 0 < s.posu.synthSpeed ∧ 100000000 ≤ s.posu.genPhase) ∧
    (due .switchDeadline ↔ ∃ p t, s.posu.pendingSwitch = some p ∧ p.deadline = some t ∧ ended t) ∧
    (due .silenceExpiry ↔ ∃ m, s.posu.monitor = some m ∧ 100 ≤ m.reference ∧
      ended (m.lastCount + BitVec.ofNat 48 (s.posu.settings.silenceWindow * 100000))) ∧
    (due .speedIntervalEnd ↔ ended s.posu.intervalEnd) ∧
    (∀ i, due (.filterExpiry i) ↔ ∃ e, (s.capu.input i).pendingEdge = some e ∧ ended e.due) ∧
    (due .ejectPulseEnd ↔ ∃ t, s.trgu.eject.upTo = some t ∧ ended t) ∧
    (∀ n, (due (.triggerPulseEnd n) ↔ ∃ t, (s.chan n).trigger = some t ∧ ended t) ∧
      (due (.strobeDelayEnd n) ↔ ∃ t w, (s.chan n).strobe = .delaying t w ∧ ended t) ∧
      (due (.strobePulseEnd n) ↔ ∃ t, (s.chan n).strobe = .high t ∧ ended t) ∧
      (due (.frameWindowExpiry n) ↔ (s.port n).current ≠ none ∧ ∃ t, (s.port n).windowEnd = some t ∧ ended t)) ∧
    (due .retrainHoldEnd ↔ ∃ t, s.lnk.hold = some t ∧ ended t) ∧
    (due .transmitFrameEnd ↔ s.lnk.tx.counts = true ∧ s.lnk.tx.length ≤ s.lnk.txSent) ∧
    (∀ c, ¬due (.resetEnd c))) ∧
  (∀ s : State, inReset s = true →
    ∀ c, c ∈ dueEvents s ↔ c = .resetEnd .request ∧ s.hold.request = some 0) ∧
  (∀ (t : Stamp) (s : State), inReset s = false →
    (timeUp s.stamp t = true → reachTime t s = s) ∧
    (timeUp s.stamp t = false → let n := (t - s.stamp).toNat;
      reachTime t s = { s with
        stamp := t
        posu := { s.posu with genPhase := s.posu.genPhase + s.posu.synthSpeed * n }
        lnk := { s.lnk with txSent := s.lnk.txSent + if s.lnk.tx.counts then 12 * n else 0 } }))

/-- Every command has a next state in every state, and so has every step: the model stops nowhere. -/
def Obligations.EveryCommandGoesOn : Prop := ExecSafe ∧ StepSafe

/-- R198: POWER_ON, a fall of RST and a RESET_DEVICE from LINE each hold every block at its reset values. What stays is what the
world holds and what waits: the queue, the levels on the pins and the choices made; and of RESET_DEVICE's transaction, which its
rise of CS_N ends, what it shifted out. As equations of the whole state they hold the model's own choices too: that no frame is
in reception, nothing is sent or shifted out, and the generator's phase is 0 is log entry 21; that the index of the choices
stays is log entry 2; and the level of CS_N, the transaction and the bytes shifted out rest on log entry 7. -/
def Obligations.ResetsHoldEveryBlock : Prop :=
  ∀ s : State,
    (∀ rstLow, exec (.powerOn rstLow) s = .next
      { pending := s.pending, orderIndex := s.orderIndex, pins := s.pins, hold := { power := true, rst := rstLow } }) ∧
    exec .rstAsserted s = .next
      { pending := s.pending, orderIndex := s.orderIndex, pins := s.pins, hold := { s.hold with rst := true } } ∧
    (∀ args, CanServe .line s → exec (.resetDevice .line args) s = .next
      { pending := s.pending, orderIndex := s.orderIndex, pins := { s.pins with csLow := false }
        hold := { s.hold with request := some 1000 }
        rnu := { shifted := miso s.rnu.response (1 + args.length) } })

/-- The reset values that the chapters give (R19, R30, R50, R75, R97, R114, R134, R149, R167, R187, R198), held by the state
that every cause of a device reset leaves. And the state right after reset has what every step keeps, in the statements of every
step below. -/
def Obligations.ResetHasItsValuesAndWhatStepsKeep : Prop :=
  (StoreAndViewsOk State.reset ∧ PositionOk State.reset.posu ∧
    TableOk State.reset.posu.position State.reset.capu State.reset.itab ∧ LinkOk State.reset ∧ TriggersOk State.reset ∧
    StartsRise State.reset.itab ∧ CatalogueOk State.reset ∧ QueuesOk State.reset) ∧
  ∀ (h : ResetHold) (s : State), let t := deviceReset h s
    t.stamp = 0 ∧
    (t.posu.position = 0 ∧ t.posu.active = .synth ∧ t.posu.synthSpeed = 0 ∧ t.posu.pendingSwitch = none ∧
      t.posu.measuredSpeed = 0 ∧ t.posu.intervals = [0, 0, 0, 0, 0, 0, 0, 0] ∧ t.posu.monitor = none ∧
      t.posu.lastSwitch = none ∧ t.posu.lastFailover = none ∧
      t.posu.settings = { qualCount := 256, switchLimit := 1000, silenceWindow := 50, faultLimit := 4
                          quadSense := .normal, stepSense := .normal }) ∧
    (t.capu.fifo = [] ∧ t.capu.dropped = 0 ∧
      (∀ i, (t.capu.input i).pendingEdge = none ∧ (t.capu.input i).filter = 0 ∧ (t.capu.input i).level = .high ∧
        (t.capu.input i).role = .capture ∧ (t.capu.input i).edges = if i = .stop then .both else .off)) ∧
    (t.itab.items = [] ∧ t.itab.nextNumber = 1 ∧ t.itab.assigned = 0 ∧ t.itab.suppression = false ∧ t.itab.blind = [] ∧
      t.itab.refusedEdges = 0 ∧ t.itab.overflowEdges = 0 ∧ t.itab.blindLost = 0 ∧ t.itab.retired = {} ∧
      t.itab.withdrawn = 0 ∧ t.itab.blindEjects = 0 ∧ t.itab.lateVerdicts = 0 ∧ t.itab.overridden = 0 ∧
      t.itab.lastRetirement = none ∧
      t.itab.geometry = { minGap := 64, maxLength := 4096, ejectDistance := 65536, defaultVerdict := .reject
                          blindPolicy := .reject }) ∧
    (∀ n, (t.chan n).state = .idle ∧ (t.chan n).plan = .off ∧ (t.chan n).offset = 0 ∧ (t.chan n).scanPitch = 16 ∧
      (t.chan n).queue = [] ∧ (t.chan n).freeRun = none ∧ (t.chan n).window = none ∧
      (t.chan n).active = { width := 1000, strobe := false, strobeDelay := 0, strobeWidth := 1000 } ∧
      (t.chan n).shadow = { width := 1000, strobe := false, strobeDelay := 0, strobeWidth := 1000 } ∧
      (t.chan n).untilMark = none ∧ (t.chan n).fired = 0 ∧ (t.chan n).skipped = 0 ∧ (t.chan n).trigger = none ∧
      (t.chan n).strobe = .low) ∧
    t.trgu.eject = { width := 20000, upTo := none, count := 0 } ∧
    (∀ n, t.port n = { state := .disabled, kind := .area, width := 1024, lines := 1024, depth := 8, frameWindow := 10000
                       current := none, windowEnd := none, lastCounter := none, counters := {} } ∧
      t.packer n = {
        conversion := { format := .mono8, blackOffset := 0, gain := 4096, rounding := .nearestEven
                        rangeMode := .saturate, faultLimit := 0, faultReport := false }
        previewOn := true, previewFactor := 8, context := none }) ∧
    (t.fsto.pool.length = 16384 ∧ (∀ i, (h : i < t.fsto.pool.length) → t.fsto.pool[i].toNat = i) ∧
      (∀ i : Fin 512, t.fsto.slots[i] = { gen := 0, record := none }) ∧ t.fsto.age = [] ∧ t.fsto.lowWater = 1024 ∧
      t.fsto.evictions = 0 ∧ t.fsto.recordShortages = 0 ∧ t.fsto.blockShortages = 0) ∧
    (t.lnk.state = .down ∧ t.lnk.hold = none ∧ t.lnk.retrainPending = false ∧ t.lnk.epoch = 0 ∧ t.lnk.alignCount = 0 ∧
      t.lnk.errorRun = 0 ∧ t.lnk.far = none ∧ t.lnk.farAligned = false ∧ t.lnk.idleDue = 0 ∧ t.lnk.lastDown = none ∧
      t.lnk.counters = {} ∧ t.lnk.tx = .silent) ∧
    (t.fwd.control = [] ∧ t.fwd.reserved = false ∧ t.fwd.pull = [] ∧ t.fwd.preview = [] ∧ t.fwd.credit = 0 ∧
      t.fwd.fullLane = none ∧ t.fwd.previewLane = none ∧ t.fwd.fullRun = 0 ∧ (∀ n : Unit8, t.fwd.autoFull[n] = .none) ∧
      t.fwd.holdRejected = false ∧ t.fwd.counters = {}) ∧
    (t.rnu.response = [] ∧ t.rnu.transaction = none ∧ t.rnu.lineView = 0 ∧ t.rnu.officeView = 0 ∧ t.rnu.lineMask = 0 ∧
      t.rnu.officeMask = 0 ∧ attn t.rnu = false)

/-- R198, R20, R23, R167: the end of one cause of a device reset while another holds ends that cause alone. The end of the last
one ends the reset: the straps choose the start-up switch, each filter takes its pin's level, with light the link enters
ALIGNING with epoch 1, and the transmitter begins an idle frame. A RESET_END out of reset changes nothing (log entry 9). -/
def Obligations.ResetEndsWithItsLastCause : Prop :=
  ∀ (c : ResetCause) (s : State),
    (inReset s = true → inReset { s with hold := s.hold.without c } = true →
      exec (.resetEnd c) s = .next { s with hold := s.hold.without c }) ∧
    (inReset s = false → exec (.resetEnd c) s = .next s) ∧
    (inReset s = true → inReset { s with hold := s.hold.without c } = false →
      ∃ t, exec (.resetEnd c) s = .next t ∧ inReset t = false ∧ t.stamp = 0 ∧ t.pins = s.pins ∧ t.pending = s.pending ∧
        t.posu.active = .synth ∧
        t.posu.pendingSwitch = (match s.pins.psel1, s.pins.psel0 with
          | false, false => none
          | true, false => some { target := .step, count := 0, deadline := none }
          | _, true => some { target := .quad, count := 0, deadline := none }) ∧
        t.posu.settings.quadSense = (if s.pins.psel1 && s.pins.psel0 then .reverse else .normal) ∧
        (∀ i, (t.capu.input i).filtered = s.pins.level i ∧ (t.capu.input i).pendingEdge = none) ∧
        t.lnk.state = (if s.pins.light then .aligning else .down) ∧ t.lnk.epoch = (if s.pins.light then 1 else 0) ∧
        t.lnk.tx = .idle t.lnk.state t.lnk.epoch none ∧ t.itab = {} ∧ t.trgu = {} ∧
        t.ports = Vector.replicate 8 {} ∧ t.packers = Vector.replicate 8 {} ∧ t.fsto = {} ∧ t.fwd = {} ∧ t.rnu = {})

/-! ## How requests are taken -/

/-- R192: the code, the issuers and the argument bytes of each of the 57 operations, for the constructor that is it. -/
def Obligations.TheCommandTableIsR192 : Prop :=
  ∀ (v : Via) (a : List Byte),
    IsRow (.nop v a) v a 0x00 true false 0 ∧ IsRow (.readStatus v a) v a 0x01 true true 0 ∧
    IsRow (.setNoticeMask v a) v a 0x02 true true 4 ∧ IsRow (.resetDevice v a) v a 0x03 true false 0 ∧
    IsRow (.readPosition v a) v a 0x10 true true 0 ∧ IsRow (.readPositionConfig v a) v a 0x11 true true 0 ∧
    IsRow (.setPositionConfig v a) v a 0x12 true false 9 ∧ IsRow (.selectSource v a) v a 0x13 true false 1 ∧
    IsRow (.abortSwitch v a) v a 0x14 true false 0 ∧ IsRow (.setSpeed v a) v a 0x15 true false 4 ∧
    IsRow (.readInputs v a) v a 0x18 true true 0 ∧ IsRow (.setInput v a) v a 0x19 true false 6 ∧
    IsRow (.readCapture v a) v a 0x1A true false 0 ∧ IsRow (.readItem v a) v a 0x20 true true 3 ∧
    IsRow (.listItems v a) v a 0x21 true true 0 ∧ IsRow (.readItemGeometry v a) v a 0x22 true true 0 ∧
    IsRow (.setItemGeometry v a) v a 0x23 true false 12 ∧ IsRow (.declareItem v a) v a 0x24 true false 8 ∧
    IsRow (.tagItem v a) v a 0x25 true false 7 ∧ IsRow (.withdrawItem v a) v a 0x26 true false 3 ∧
    IsRow (.readChannel v a) v a 0x30 true true 1 ∧ IsRow (.setChannel v a) v a 0x31 true false 7 ∧
    IsRow (.setPulse v a) v a 0x32 true false 8 ∧ IsRow (.planItem v a) v a 0x33 true false 1 ∧
    IsRow (.runPitch v a) v a 0x34 true false 5 ∧ IsRow (.shootCount v a) v a 0x35 true false 7 ∧
    IsRow (.runUntil v a) v a 0x36 true false 7 ∧ IsRow (.haltSoft v a) v a 0x37 true false 1 ∧
    IsRow (.haltHard v a) v a 0x38 true false 1 ∧ IsRow (.readEject v a) v a 0x39 true true 0 ∧
    IsRow (.setEject v a) v a 0x3A true false 2 ∧ IsRow (.readPort v a) v a 0x40 true true 1 ∧
    IsRow (.setPort v a) v a 0x41 true false 11 ∧ IsRow (.enablePort v a) v a 0x42 true false 1 ∧
    IsRow (.disablePort v a) v a 0x43 true false 1 ∧ IsRow (.resetPort v a) v a 0x44 true false 1 ∧
    IsRow (.readConversion v a) v a 0x48 true true 1 ∧ IsRow (.setConversion v a) v a 0x49 true false 13 ∧
    IsRow (.setPreview v a) v a 0x4A false true 3 ∧ IsRow (.readFrame v a) v a 0x50 true true 2 ∧
    IsRow (.readStore v a) v a 0x51 true true 0 ∧ IsRow (.hold v a) v a 0x52 true true 2 ∧
    IsRow (.release v a) v a 0x53 true true 2 ∧ IsRow (.discard v a) v a 0x54 true true 2 ∧
    IsRow (.clearStore v a) v a 0x55 true false 0 ∧ IsRow (.setLowWater v a) v a 0x56 true false 2 ∧
    IsRow (.verdict v a) v a 0x60 false true 4 ∧ IsRow (.override v a) v a 0x61 true false 4 ∧
    IsRow (.setHoldRejected v a) v a 0x62 false true 1 ∧ IsRow (.readRetirements v a) v a 0x63 true true 0 ∧
    IsRow (.readLink v a) v a 0x68 true true 0 ∧ IsRow (.retrainLink v a) v a 0x69 true true 0 ∧
    IsRow (.readForward v a) v a 0x70 true true 0 ∧ IsRow (.credit v a) v a 0x71 false true 2 ∧
    IsRow (.pull v a) v a 0x72 false true 2 ∧ IsRow (.cancelPull v a) v a 0x73 false true 2 ∧
    IsRow (.setAutoFull v a) v a 0x74 false true 2

/-- R188: the dispatcher's three checks for a request of the table, in order. One that its master may not issue is answered
NOT_PERMITTED; else one with argument bytes wanting is answered BAD_LENGTH; and neither changes anything else. One that passes
is taken by its rule, with the argument bytes past its own left to that rule. -/
def Obligations.TheDispatcherChecksInOrder : Prop :=
  ∀ (i : Instr) (o : OpSpec) (v : Via) (args : List Byte) (s : State),
    rowOf i = some o → i.request? = some (v, args) → CanServe v s →
      (o.permits (issuer v) = false → Serves i v o.code args s (ready v s) [0x05]) ∧
      (o.permits (issuer v) = true → args.length < o.argBytes → Serves i v o.code args s (ready v s) [0x04]) ∧
      (o.permits (issuer v) = true → o.argBytes ≤ args.length →
        Serves i v o.code args s (o.run (issuer v) args (ready v s)).1 (o.run (issuer v) args (ready v s)).2)

/-- R188, R190, R191: local transactions. A fall of CS_N begins one, and nothing is taken yet. At its rise a NOP asks for
nothing: it leaves the response buffer empty. A transaction whose operation byte the table does not know is answered
UNKNOWN_OPERATION and changes nothing else; one whose byte it does know is that request. Every transaction taken shifts out the
response that the buffer held, and then zeros. That the fall is a command of its own which brings the bytes shifted in so far,
that a second fall in one transaction replaces them, and that they do not bind the rise is the model's choice (log entry 7). -/
def Obligations.LocalTransactionsShiftOutTheResponse : Prop :=
  (∀ (i : Instr) (o : OpSpec) (args : List Byte) (s : State), rowOf i = some o → i.request? = some (.fall, args) →
    inReset s = false → s.pins.csLow = false ∨ s.rnu.transaction ≠ none →
      exec i s = .next { s with
        pins := { s.pins with csLow := true }, rnu := { s.rnu with transaction := some (o.code :: args) } }) ∧
  ∀ (op : Byte) (args : List Byte) (s : State), CanServe .line s →
    exec (.nop .line args) s = .next { s with
      pins := { s.pins with csLow := false }
      rnu := { s.rnu with response := [], transaction := none, shifted := miso s.rnu.response (1 + args.length) } } ∧
    (op.toNat ∉ commandCodes → exec (.unknownOperation op args) s = .next (served .line op args s (ready .line s) [0x06])) ∧
    (∀ i o, rowOf i = some o → i.request? = some (.line, args) → o.code = op → exec (.unknownOperation op args) s = exec i s) ∧
    (miso s.rnu.response (1 + args.length)).length = 1 + args.length ∧
    ∀ k, k < 1 + args.length → (miso s.rnu.response (1 + args.length))[k]? = some (s.rnu.response.getD k 0)

/-- R198 and R170: requests that are not taken. In device reset a fall and a rise of CS_N move that pin's level alone, and no
request reaches the part by the link. A device reset abandons a transaction in progress: where CS_N fell before the reset or
during it, and has not risen, the fall, what is shifted in and the rise are ignored after it as well. With the control queue
full, a request of OFFICE is neither checked nor executed: it is counted, and COMMAND_DROPPED is set in the OFFICE view. In
ALIGNING it is early (R157). While the framer is stopped or hunting, no frame ends (log entry 8). -/
def Obligations.RequestsNotTaken : Prop :=
  (∀ (h : ResetHold) (s : State), (deviceReset h s).rnu.transaction = none ∧ (deviceReset h s).pins = s.pins ∧
    (bootUp s).rnu.transaction = none ∧ (bootUp s).pins = s.pins) ∧
  ∀ (i : Instr) (o : OpSpec) (v : Via) (args : List Byte) (s : State),
    rowOf i = some o → i.request? = some (v, args) →
      (v = .fall → inReset s = true ∨ (s.pins.csLow = true ∧ s.rnu.transaction = none) →
        exec i s = .next { s with pins := { s.pins with csLow := true } }) ∧
      (v = .line → inReset s = true ∨ (s.pins.csLow = true ∧ s.rnu.transaction = none) →
        exec i s = .next { s with pins := { s.pins with csLow := false } } ∧
        ∀ op, exec (.unknownOperation op args) s = .next { s with pins := { s.pins with csLow := false } }) ∧
      (∀ tag, v = .office tag → inReset s = true → exec i s = .next s) ∧
      (∀ tag, v = .office tag → inReset s = false → s.lnk.framer = .framed →
        (s.lnk.state = .up → 32 ≤ occupancy s.fwd → exec i s = .next (setOffice .commandDropped
          ((s.setLnk { s.lnk with
            reception := none, counters := { s.lnk.counters with accepted := s.lnk.counters.accepted + 1 } }).setFwd
            { s.fwd with counters := { s.fwd.counters with commandsDropped := s.fwd.counters.commandsDropped + 1 } }))) ∧
        (s.lnk.state = .aligning → exec i s = .next (s.setLnk { s.lnk with
          reception := none, counters := { s.lnk.counters with early := s.lnk.counters.early + 1 } }))) ∧
      (∀ tag, v = .office tag → s.lnk.state = .down ∨ s.lnk.framer = .hunting → exec i s = .next s)

/-! ## Reads -/

/-- R189, R21, R22, R29, R48, R49, R73, R133, R146, R166, R185: the ten reads that name nothing are taken from either master,
answered OK with what is sampled when they are taken, and change nothing. What the snapshots hold of times left rests on log
entry 3 (rounding), of places, lanes and optional groups on log entry 15, and of the sizes of the numbers counted out of the
record slots and the queues on log entry 29. -/
def Obligations.PlainReadsSampleAndChangeNothing : Prop :=
  ∀ (v : Via) (args : List Byte) (s : State), CanServe v s →
    Serves (.readPosition v args) v 0x10 args s (ready v s) (0x01 :: positionSnapshot (ready v s)) ∧
    Serves (.readPositionConfig v args) v 0x11 args s (ready v s) (0x01 :: positionSettings (ready v s)) ∧
    Serves (.readInputs v args) v 0x18 args s (ready v s) (0x01 :: inputsSnapshot (ready v s)) ∧
    Serves (.listItems v args) v 0x21 args s (ready v s) (0x01 :: itemList (ready v s)) ∧
    Serves (.readItemGeometry v args) v 0x22 args s (ready v s) (0x01 :: geometryBytes (ready v s)) ∧
    Serves (.readEject v args) v 0x39 args s (ready v s) (0x01 :: ejectSnapshot (ready v s)) ∧
    Serves (.readStore v args) v 0x51 args s (ready v s) (0x01 :: storeSnapshot (ready v s)) ∧
    Serves (.readRetirements v args) v 0x63 args s (ready v s) (0x01 :: retirementsSnapshot (ready v s)) ∧
    Serves (.readLink v args) v 0x68 args s (ready v s) (0x01 :: linkSnapshot (ready v s)) ∧
    Serves (.readForward v args) v 0x70 args s (ready v s) (0x01 :: forwardSnapshot (ready v s))

/-- R74, R95, R113, R47, R132: the reads that name a channel, a port, an item or a frame. A port or channel outside 0 to 7 is
answered BAD_ARG, an item that is not live GONE or UNKNOWN_ITEM, and a handle that is not valid UNKNOWN_FRAME; none of these
reads changes anything. The time left of a frame window rests on log entry 3 (rounding), and the places of optional groups in
the channel, port and conversion snapshots on log entry 15. -/
def Obligations.NamedReadsSampleAndChangeNothing : Prop :=
  ∀ (v : Via) (args : List Byte) (s : State), CanServe v s → let r := ready v s
    (1 ≤ args.length →
      (∀ n : Unit8, argNat args 0 1 = n.val →
        Serves (.readChannel v args) v 0x30 args s r (0x01 :: channelSnapshot n r) ∧
        Serves (.readPort v args) v 0x40 args s r (0x01 :: portSnapshot n r) ∧
        Serves (.readConversion v args) v 0x48 args s r (0x01 :: conversionSnapshot n r)) ∧
      (8 ≤ argNat args 0 1 →
        Serves (.readChannel v args) v 0x30 args s r [0x03] ∧ Serves (.readPort v args) v 0x40 args s r [0x03] ∧
        Serves (.readConversion v args) v 0x48 args s r [0x03])) ∧
    (3 ≤ args.length → Serves (.readItem v args) v 0x20 args s r
      (match findItem s (argNat args 0 3) with
        | some it => 0x01 :: itemSnapshot it
        | none => if isGone s.itab (argNat args 0 3) then [0x08] else [0x07])) ∧
    (2 ≤ args.length → Serves (.readFrame v args) v 0x50 args s r
      (match recordAt s (argHandle args) with
        | some f => 0x01 :: frameSnapshot (argHandle args) f (s.fsto.age.contains (argHandle args)) f.eligible
        | none => [0x09]))

/-- R194 to R197: the views. A notice joins a view as its flag. One that joins the OFFICE view, or a mask from OFFICE, that
makes the view hold an unmasked flag where it held none offers one NOTICE, with the view and the mask as they stand: it joins
the control queue where the link is UP and there is room, and otherwise is dropped with MESSAGE_LOST (R169). READ_STATUS returns
the issuer's view and mask and empties that view, which from LINE releases ATTN. SET_NOTICE_MASK stores the flags it names that
belong to the issuer's view, and answers with them; its NOTICE goes ahead of its response. The other view and mask stay. -/
def Obligations.NoticesJoinTheViewsAndCallTheOffice : Prop :=
  (∀ (n : Notice) (s : State), let v := s.rnu.officeView ||| n.bit
    setLine n s = s.setRnu { s.rnu with lineView := s.rnu.lineView ||| n.bit } ∧
    setBoth n s = setOffice n (setLine n s) ∧
    setOffice n s =
      if s.rnu.officeView &&& ~~~s.rnu.officeMask = 0 ∧ v &&& ~~~s.rnu.officeMask ≠ 0 then
        if s.lnk.state = .up ∧ occupancy s.fwd < 32 then
          (s.setRnu { s.rnu with officeView := v }).setFwd { s.fwd with control := s.fwd.control ++ [{ frames := [{
            kind := .message, tag := 0, op := 0x04, body := be 4 v.toNat ++ be 4 s.rnu.officeMask.toNat }] }] }
        else (s.setRnu { s.rnu with officeView := v ||| 0x00010000 }).setFwd { s.fwd with
          counters := { s.fwd.counters with messagesDropped := s.fwd.counters.messagesDropped + 1 } }
      else s.setRnu { s.rnu with officeView := v }) ∧
  (∀ (args : List Byte) (s : State),
    (CanServe .line s → Serves (.readStatus .line args) .line 0x01 args s
      ((ready .line s).setRnu { (ready .line s).rnu with lineView := 0 })
      (0x01 :: (be 4 s.rnu.lineView.toNat ++ be 4 s.rnu.lineMask.toNat)) ∧
      ∀ t, exec (.readStatus .line args) s = .next t → attn t.rnu = false) ∧
    (∀ tag, CanServe (.office tag) s → Serves (.readStatus (.office tag) args) (.office tag) 0x01 args s
      ((ready (.office tag) s).setRnu { s.rnu with officeView := 0 })
      (0x01 :: (be 4 s.rnu.officeView.toNat ++ be 4 s.rnu.officeMask.toNat)))) ∧
  ∀ (args : List Byte) (s : State), 4 ≤ args.length → let mask := BitVec.ofNat 32 (argNat args 0 4)
    (CanServe .line s → Serves (.setNoticeMask .line args) .line 0x02 args s
      ((ready .line s).setRnu { (ready .line s).rnu with lineMask := mask &&& 0x0000CFFF })
      (0x01 :: be 4 (mask &&& 0x0000CFFF).toNat)) ∧
    (∀ tag, CanServe (.office tag) s →
      let m := mask &&& 0x00073FE9
      let r := (ready (.office tag) s).setRnu { s.rnu with officeMask := m }
      Serves (.setNoticeMask (.office tag) args) (.office tag) 0x02 args s
        (if s.rnu.officeView &&& ~~~s.rnu.officeMask = 0 ∧ s.rnu.officeView &&& ~~~m ≠ 0 then
          if occupancy r.fwd < 32 then
            r.setFwd { r.fwd with control := r.fwd.control ++ [{ frames := [{
              kind := .message, tag := 0, op := 0x04
              body := be 4 s.rnu.officeView.toNat ++ be 4 m.toNat }] }] }
          else (r.setFwd { r.fwd with counters := { r.fwd.counters with
              messagesDropped := r.fwd.counters.messagesDropped + 1 } }).setRnu
            { r.rnu with officeView := r.rnu.officeView ||| 0x00010000 }
        else r)
        (0x01 :: be 4 m.toNat))

/-- R199, R200 and section 11.3: bodies and frames as bytes. The lengths of the bodies, each optional field's presence byte and
bytes counted, whatever they hold: six are section 11.3's, and those of the other snapshots rest on log entry 15, and of
READ_STORE and READ_FORWARD on log entry 29 too. Each frame is a delimiter, its content by the tables of R200, and the CRC of
that content, and is as long as the transmitter counts it. -/
def Obligations.BodiesAndFramesHaveTheBytesOfTheirFields : Prop :=
  (∀ (s : State) (it : Item) (h : Handle) (f : FrameRecord) (a b : Bool) (n : Unit8) (p : Part) (v : VerdictCopy)
    (src : VerdictSource) (q : Pos) (t : Stamp),
    (itemReadyBody it).length = 65 ∧ (itemRetiredBody it v src q t).length = 22 ∧
    (transferBeginBody h p a f).length = 53 ∧ (statusBody s).length = 37 ∧ (itemSnapshot it).length = 76 ∧
    (frameSnapshot h f a b).length = 71 ∧ (positionSnapshot s).length = 47 ∧ (positionSettings s).length = 9 ∧
    (geometryBytes s).length = 12 ∧ (inputsSnapshot s).length = 31 ∧ (ejectSnapshot s).length = 9 ∧
    (portSnapshot n s).length = 65 ∧ (conversionSnapshot n s).length = 18 ∧ (storeSnapshot s).length = 30 ∧
    (retirementsSnapshot s).length = 68 ∧ (linkSnapshot s).length = 67 ∧ (forwardSnapshot s).length = 84) ∧
  (∀ (t : Transmission), t.counts = true → let bytes := t.content ++ be 4 (crc32 t.content).toNat
    (∃ d, t.frame = some { delimiter := d, bytes := bytes }) ∧ t.length = 1 + bytes.length) ∧
  (∀ (state : LinkState) (epoch : Byte) (echo : Option Byte), let t := Transmission.idle state epoch echo
    t.content = [match state with | .down => 0 | .aligning => 1 | .up => 2, epoch,
      if echo.isSome then 1 else 0, echo.getD 0] ++ List.replicate 55 0 ∧ t.delimiter = some .idle ∧ t.length = 64) ∧
  (∀ (f : ControlFrame) (m : Bool), let t := Transmission.control f m
    t.content = BitVec.ofNat 8 ((match f.kind with | .request => 0 | .response => 1 | .message => 2) +
        if f.more then 128 else 0) ::
      (be 2 f.tag.toNat ++ f.op :: BitVec.ofNat 8 f.body.length :: f.body) ∧
    t.delimiter = some .control ∧ t.length = 10 + f.body.length) ∧
  (∀ g : Segment, let t := Transmission.image g
    t.content = be 2 (g.handle.slot.val * 128 + g.handle.gen.toNat) ++
      [match g.part with | .full => 0 | .preview => 1,
        BitVec.ofNat 8 ((if g.last then 1 else 0) + if g.abandoned then 2 else 0)] ++
      be 2 g.number ++ be 2 g.payload.length ++ g.payload ∧
    t.delimiter = some .image ∧ t.length = 13 + g.payload.length)

/-! ## Settings (01, 02) and position (01_line_position.md) -/

/-- R6, R25, R46: settings written whole or not at all. SET_POSITION_CONFIG writes all six settings, and a pending switch's
count follows the new QUAL_COUNT; a changed sense of a source in use is BUSY. SET_INPUT writes the four settings of an input,
and a change of the ITEM edge selection or present level clears the trailing-edge suppression (BUSY while the newest item is
ENTERING); the numbers of its input, level and role arguments rest on log entry 15. SET_ITEM_GEOMETRY writes all five settings
while the table is empty and the eject distance clears every item. A value out of its range is answered BAD_ARG, and a refusal
changes nothing. -/
def Obligations.PositionInputAndGeometrySettings : Prop :=
  (∀ (args : List Byte) (s : State) (g : PositionSettings), 9 ≤ args.length → CanServe .line s →
    argNat args 0 2 = g.qualCount → argNat args 2 2 = g.switchLimit → argNat args 4 2 = g.silenceWindow →
    argNat args 6 1 = g.faultLimit →
      (2 ≤ argNat args 7 1 ∨ 2 ≤ argNat args 8 1 ∨ ¬(16 ≤ g.qualCount ∧ g.qualCount ≤ 4096 ∧ 10 ≤ g.switchLimit ∧
          g.switchLimit ≤ 10000 ∧ 1 ≤ g.silenceWindow ∧ g.silenceWindow ≤ 1000 ∧ 1 ≤ g.faultLimit ∧ g.faultLimit ≤ 15) →
        Serves (.setPositionConfig .line args) .line 0x12 args s (ready .line s) [0x03]) ∧
      (argNat args 7 1 = g.quadSense.code.toNat → argNat args 8 1 = g.stepSense.code.toNat →
        16 ≤ g.qualCount → g.qualCount ≤ 4096 → 10 ≤ g.switchLimit → g.switchLimit ≤ 10000 →
        1 ≤ g.silenceWindow → g.silenceWindow ≤ 1000 → 1 ≤ g.faultLimit → g.faultLimit ≤ 15 →
        if (g.quadSense ≠ s.posu.settings.quadSense ∧ inUse s.posu .quad = true) ∨
            (g.stepSense ≠ s.posu.settings.stepSense ∧ inUse s.posu .step = true) then
          Serves (.setPositionConfig .line args) .line 0x12 args s (ready .line s) [0x02]
        else
          Serves (.setPositionConfig .line args) .line 0x12 args s
            ((ready .line s).setPosu { s.posu with
              settings := g
              pendingSwitch := s.posu.pendingSwitch.map fun p =>
                { p with count := if p.target = .synth then g.qualCount else min p.count g.qualCount } }) [0x01])) ∧
  (∀ (args : List Byte) (s : State), 6 ≤ args.length → CanServe .line s →
    (4 ≤ argNat args 0 1 ∨ 4 ≤ argNat args 1 1 ∨ 2 ≤ argNat args 4 1 ∨ 3 ≤ argNat args 5 1 →
      Serves (.setInput .line args) .line 0x19 args s (ready .line s) [0x03]) ∧
    (∀ i edges level role, inputOf (argNat args 0 1) = some i → edgesOf (argNat args 1 1) = some edges →
      levelOf (argNat args 4 1) = some level → roleOf (argNat args 5 1) = some role →
      let u := s.capu.input i
      let changes := i = .item ∧ (edges ≠ u.edges ∨ level ≠ u.level)
      if i = .stop ∧ edges ≠ .both then Serves (.setInput .line args) .line 0x19 args s (ready .line s) [0x03]
      else if changes ∧ newestEntering s = true then
        Serves (.setInput .line args) .line 0x19 args s (ready .line s) [0x02]
      else Serves (.setInput .line args) .line 0x19 args s
        (((ready .line s).setCapu (s.capu.setInput i
          { u with edges := edges, filter := argNat args 2 2, level := level, role := role })).setItab
          { s.itab with suppression := if changes then false else s.itab.suppression }) [0x01])) ∧
  ∀ (args : List Byte) (s : State), 12 ≤ args.length → CanServe .line s →
    let gap := argNat args 0 2
    let len := argNat args 2 4
    let dist := argNat args 6 4
    (s.itab.items ≠ [] → Serves (.setItemGeometry .line args) .line 0x23 args s (ready .line s) [0x02]) ∧
    (s.itab.items = [] → ∀ v b, verdictOf (argNat args 10 1) = v → blindPolicyOf (argNat args 11 1) = b →
      (∀ v' b', v = some v' → b = some b' → 1 ≤ gap → 1 ≤ len → len ≤ 16777216 → 2 ≤ dist → dist ≤ 1073741824 →
        len + largestOffset s < dist →
        Serves (.setItemGeometry .line args) .line 0x23 args s ((ready .line s).setItab { s.itab with geometry := {
          minGap := gap, maxLength := len, ejectDistance := dist, defaultVerdict := v', blindPolicy := b' } }) [0x01]) ∧
      (v = none ∨ b = none ∨ gap = 0 ∨ len = 0 ∨ 16777216 < len ∨ dist < 2 ∨ 1073741824 < dist ∨
          dist ≤ len + largestOffset s →
        Serves (.setItemGeometry .line args) .line 0x23 args s (ready .line s) [0x03]))

/-- R7, R12, R17, R4: SELECT_SOURCE and SET_SPEED. SELECT_SOURCE goes by the switch state. The end of a switch clears it, writes
the last switch outcome with the target, the outcome and the stamp, and sets SWITCH_DONE for DONE and SWITCH_FAILED otherwise,
in the LINE view alone; with no switch pending nothing ends. SET_SPEED writes 0 or a value of 10 to 4,000,000 as it is, answered
OK; 1 to 9 as 10 and a greater one as 4,000,000, answered CLAMPED with the value written. A change of speed restarts the
generator's interval; the same speed leaves it running (log entry 11). -/
def Obligations.SourcesAreSelectedAndSpeedsClamped : Prop :=
  (∀ (o : SwitchOutcome) (s : State),
    (s.posu.pendingSwitch = none → endSwitch o s = s) ∧
    (∀ p, s.posu.pendingSwitch = some p → endSwitch o s =
      (s.setPosu { s.posu with
        pendingSwitch := none, lastSwitch := some { target := p.target, outcome := o, stamp := s.stamp } }).setRnu
        { s.rnu with lineView := s.rnu.lineView ||| if o = .done then 0x00000002 else 0x00000004 })) ∧
  (∀ (args : List Byte) (s : State), 1 ≤ args.length → CanServe .line s →
    (3 ≤ argNat args 0 1 → Serves (.selectSource .line args) .line 0x13 args s (ready .line s) [0x03]) ∧
    ∀ target : Source, argNat args 0 1 = target.code.toNat →
      (s.posu.active = target → s.posu.pendingSwitch = none →
        Serves (.selectSource .line args) .line 0x13 args s (ready .line s) [0x0F]) ∧
      (s.posu.active = target → s.posu.pendingSwitch ≠ none →
        Serves (.selectSource .line args) .line 0x13 args s (endSwitch .cancelled (ready .line s)) [0x01]) ∧
      (s.posu.active ≠ target →
        Serves (.selectSource .line args) .line 0x13 args s
          ((endSwitch .superseded (ready .line s)).setPosu
            { (endSwitch .superseded (ready .line s)).posu with pendingSwitch := some {
              target := target
              count := if target = .synth then s.posu.settings.qualCount else 0
              deadline := some (s.stamp + BitVec.ofNat 48 (s.posu.settings.switchLimit * 100000)) } }) [0x01])) ∧
  ∀ (args : List Byte) (s : State), 4 ≤ args.length → CanServe .line s →
    let v := argNat args 0 4
    let w := if v = 0 then 0 else if v < 10 then 10 else if 4000000 < v then 4000000 else v
    Serves (.setSpeed .line args) .line 0x15 args s
      ((ready .line s).setPosu { s.posu with
        synthSpeed := w, genPhase := if w = s.posu.synthSpeed then s.posu.genPhase else 0 })
      (if w = v then [0x01] else 0x13 :: be 4 w)

/-- R8: ABORT_SWITCH is LINE's to issue. With a switch pending it ends CANCELLED and the answer is OK; with none the answer is
REDUNDANT and nothing changes. -/
def Obligations.AbortSwitchCancelsAPendingSwitch : Prop :=
  ∀ (args : List Byte) (s : State),
    (∀ tag, CanServe (.office tag) s → Serves (.abortSwitch (.office tag) args) (.office tag) 0x14 args s
      (ready (.office tag) s) [0x05]) ∧
    (CanServe .line s → ∀ p, s.posu.pendingSwitch = some p → Serves (.abortSwitch .line args) .line 0x14 args s
      (((ready .line s).setPosu { s.posu with
        pendingSwitch := none
        lastSwitch := some { target := p.target, outcome := .cancelled, stamp := s.stamp } }).setRnu
        { (ready .line s).rnu with lineView := s.rnu.lineView ||| 0x00000004 }) [0x01]) ∧
    (CanServe .line s → s.posu.pendingSwitch = none → Serves (.abortSwitch .line args) .line 0x14 args s (ready .line s) [0x0F])

/-- R2, R3, R4: what QUAD_EDGE, STEP_EDGE and GENERATOR_COUNT make of themselves: counts and faults of their sources. Each step
along 00, 10, 11, 01 is a forward count of QUAD under NORMAL and each step back a backward one, exchanged under REVERSE; both
channels together are a fault. An edge that changes nothing is nothing, and an edge in device reset moves the pins' levels alone
(log entry 9). The generator counts one whole interval after its last count, with the remainder of its phase carried (log entry
1); at speed 0 it gives none. -/
def Obligations.EdgesAndIntervalsAreSourceCounts : Prop :=
  (∀ (sense : Sense) (a b : Bool),
    quadDecode sense a b (!b) a = .count (decide (sense = .normal)) ∧
    quadDecode sense (!b) a a b = .count (decide (sense = .reverse)) ∧
    quadDecode sense a b (!a) (!b) = .fault ∧ quadDecode sense a b a b = .still) ∧
  ∀ s : State,
    (∀ a b, let s1 := { s with pins := { s.pins with encA := a, encB := b } }
      (inReset s = true → exec (.quadEdge a b) s = .next s1) ∧
      (inReset s = false → ∀ f, quadDecode s.posu.settings.quadSense s.pins.encA s.pins.encB a b = .count f →
        exec (.quadEdge a b) s = .next (sourceCount .quad f s1)) ∧
      (inReset s = false → quadDecode s.posu.settings.quadSense s.pins.encA s.pins.encB a b = .fault →
        exec (.quadEdge a b) s = .next (quadFault s1)) ∧
      (inReset s = false → quadDecode s.posu.settings.quadSense s.pins.encA s.pins.encB a b = .still →
        exec (.quadEdge a b) s = .next s1)) ∧
    (∀ dirHigh, (inReset s = true → exec (.stepEdge dirHigh) s = .next s) ∧
      (inReset s = false → exec (.stepEdge dirHigh) s =
        .next (sourceCount .step (if s.posu.settings.stepSense = .normal then dirHigh else !dirHigh) s))) ∧
    (inReset s = true ∨ s.posu.synthSpeed = 0 → exec .generatorCount s = .next s) ∧
    (inReset s = false → 0 < s.posu.synthSpeed → ∃ n : Nat,
      (100000000 ≤ s.posu.genPhase + s.posu.synthSpeed * n ∧
        ∀ k, 100000000 ≤ s.posu.genPhase + s.posu.synthSpeed * k → n ≤ k) ∧
      exec .generatorCount s = .next (sourceCount .synth true { s with
        stamp := s.stamp + BitVec.ofNat 48 n
        posu := { s.posu with genPhase := s.posu.genPhase + s.posu.synthSpeed * n - 100000000 }
        lnk := { s.lnk with txSent := s.lnk.txSent + if s.lnk.tx.counts then 12 * n else 0 } }))

/-- R1, R9, R10, R13 to R15: a count of the active source renews its monitor and is a count event. A count of a pending target
that is not the active source qualifies it: one more for a forward count below QUAL_COUNT, and 0 for a backward one; and at
QUAL_COUNT it completes the switch, with the target active, its monitor started, and the count a count event. Any other count is
discarded. A quadrature fault while QUAD is active raises the fault score, and at FAULT_LIMIT it is a fault-burst failure; while
QUAD qualifies it sets the count to 0; and otherwise it is discarded. -/
def Obligations.SourceCountsAndFaultsByTheirSource : Prop :=
  (∀ s : State,
    (∀ m, s.posu.active = .quad → s.posu.monitor = some m →
      (m.score + 1 < s.posu.settings.faultLimit →
        quadFault s = s.setPosu { s.posu with monitor := some { m with score := m.score + 1 } }) ∧
      (s.posu.settings.faultLimit ≤ m.score + 1 →
        quadFault s = failover .faultBurst { m with score := m.score + 1 } s)) ∧
    (∀ p, s.posu.active ≠ .quad → s.posu.pendingSwitch = some p → p.target = .quad →
      quadFault s = s.setPosu { s.posu with pendingSwitch := some { p with count := 0 } }) ∧
    (s.posu.active ≠ .quad → s.posu.pendingSwitch.map (·.target) ≠ some .quad → quadFault s = s)) ∧
  ∀ (src : Source) (f : Bool) (s : State),
    (s.posu.active = src → sourceCount src f s = countEvent f (s.setPosu { s.posu with
      monitor := s.posu.monitor.map fun m =>
        if src = .quad then
          { lastCount := s.stamp, reference := s.posu.measuredSpeed
            score := if m.tally + 1 = 1024 then m.score - 1 else m.score
            tally := if m.tally + 1 = 1024 then 0 else m.tally + 1 }
        else { m with lastCount := s.stamp, reference := s.posu.measuredSpeed } })) ∧
    (s.posu.active ≠ src → s.posu.pendingSwitch.map (·.target) ≠ some src → sourceCount src f s = s) ∧
    (∀ p, s.posu.active ≠ src → s.posu.pendingSwitch = some p → p.target = src →
      (p.count < s.posu.settings.qualCount → sourceCount src f s =
        s.setPosu { s.posu with pendingSwitch := some { p with count := if f then p.count + 1 else 0 } }) ∧
      (s.posu.settings.qualCount ≤ p.count → sourceCount src f s =
        countEvent f ((endSwitch .done s).setPosu { (endSwitch .done s).posu with
          active := src
          monitor := if src = .synth then none else
            some { lastCount := s.stamp, reference := s.posu.measuredSpeed, score := 0, tally := 0 } })))

/-- R1, R13, R38, R45, R137, R140: a count event moves the position by one in its direction, modulo 2^32, and counts in the
running interval. A backward one reaches nothing; of the rest of the machine it changes only the order of the blind list, which
stands sorted from the new position, the nearest ahead first (R44; an entry at the position itself counts as a whole turn away,
log entry 28). A forward one has work where a forced end, a blind entry, the oldest item's eject position or something of a
channel stands at the new position: with none it changes nothing else, and of several each is done once, in an order left open
(log entry 2). The forced end ends the ENTERING item with LONG; every blind entry there leaves the list with one eject request,
which restarts EJECT's width and is counted; and the item is retired. -/
def Obligations.CountEventsMoveThePositionAndDoTheirWork : Prop :=
  (∀ (now : Pos) (l : List Pos), (sortBlind now l).Perm l ∧ BlindOrder now (sortBlind now l)) ∧
  (∀ s : State,
    countEvent false s =
      (s.setPosu { s.posu with position := s.posu.position - 1, netCounts := s.posu.netCounts - 1 }).setItab
        { s.itab with blind := sortBlind (s.posu.position - 1) s.itab.blind } ∧
    (∀ f, (countEvent f s).posu.position = if f then s.posu.position + 1 else s.posu.position - 1) ∧
    let p := s.posu.position + 1
    let s1 := s.setPosu { s.posu with position := p, netCounts := s.posu.netCounts + 1 }
    ((∀ w, hasWork s1 p w = false) → countEvent true s = s1) ∧
    (∀ w, (∀ v, hasWork s1 p v = true ↔ v = w) → countEvent true s = doWork p w s1) ∧
    (∃ (l : List CountWork) (k : Nat), (∀ w, w ∈ l ↔ hasWork s1 p w = true) ∧ l.Nodup ∧
      countEvent true s = l.foldl (fun t w => doWork p w t) { s1 with orderIndex := s.orderIndex + k })) ∧
  ∀ (p : Pos) (s : State),
    (hasWork s p .forcedEnd = true ↔ ∃ it, s.itab.items.getLast? = some it ∧ it.state = .entering ∧
      it.start + BitVec.ofNat 32 s.itab.geometry.maxLength = p) ∧
    (∀ it, s.itab.items.getLast? = some it → it.state = .entering →
      it.start + BitVec.ofNat 32 s.itab.geometry.maxLength = p →
      doWork p .forcedEnd s = endItem it.number p true s) ∧
    (hasWork s p .blind = true ↔ p ∈ s.itab.blind) ∧
    (p ∈ s.itab.blind → let k := s.itab.blind.count p
      doWork p .blind s = (s.setItab { s.itab with
        blind := s.itab.blind.filter (· ≠ p), blindEjects := s.itab.blindEjects + BitVec.ofNat 32 k }).setEject
        { s.trgu.eject with
          upTo := some (s.stamp + BitVec.ofNat 48 (s.trgu.eject.width * 100))
          count := s.trgu.eject.count + BitVec.ofNat 32 k }) ∧
    (hasWork s p .eject = true ↔ ∃ it, s.itab.items.head? = some it ∧ it.ejectAt = p) ∧
    (∀ it, s.itab.items.head? = some it → it.ejectAt = p → doWork p .eject s = retireItem it s) ∧
    (∀ n, let c := s.chan n
      doWork p (.channel n) s = reachChannel n p s ∧
      (hasWork s p (.channel n) = true ↔
        (∃ w home, c.window = some w ∧ w.close = some (p, home) ∧ home ≠ .queued) ∨
        (∃ e, c.queue.head? = some e ∧ e.pos = p) ∨ (∃ w, c.window = some w ∧ w.nextLine = p) ∨
        (c.state = .running ∧ ∃ t, c.freeRun = some t ∧ t.next = p)))

/-- R11, R13, R14, R16: the timers of POSU, and the failover. Each event carries the clock forward to its timer's end (log entry
1). The deadline of a pending switch ends it TIMED_OUT; SILENCE_WINDOW after the last count, with a reference speed of at least
100, is a silence failure; the end of a 1 ms interval keeps its net count among the last 8, whose mean is the measured speed.
The event of a timer that does not run changes nothing, nor does any in device reset (log entry 9). A failover makes SYNTH
active at the reference speed, 0 for one of 0 or less and at most 4,000,000; ends a pending switch CANCELLED_BY_FAILOVER; stops
the monitor; writes the failover record; and sets SOURCE_FAIL in both views. It moves no position, and touches no other block
but what the notices tell the office. -/
def Obligations.PositionTimersAndFailovers : Prop :=
  (∀ s : State,
    (inReset s = true → exec .switchDeadline s = .next s ∧ exec .silenceExpiry s = .next s ∧
      exec .speedIntervalEnd s = .next s) ∧
    (inReset s = false →
      (∀ p t, s.posu.pendingSwitch = some p → p.deadline = some t →
        exec .switchDeadline s = .next (endSwitch .timedOut (reachTime t s))) ∧
      (s.posu.pendingSwitch.bind (·.deadline) = none → exec .switchDeadline s = .next s) ∧
      (∀ m, s.posu.monitor = some m → 100 ≤ m.reference → exec .silenceExpiry s = .next (failover .silence m
        (reachTime (m.lastCount + BitVec.ofNat 48 (s.posu.settings.silenceWindow * 100000)) s))) ∧
      (∀ m, s.posu.monitor = some m → m.reference < 100 → exec .silenceExpiry s = .next s) ∧
      (s.posu.monitor = none → exec .silenceExpiry s = .next s) ∧
      (let r := reachTime s.posu.intervalEnd s;
        exec .speedIntervalEnd s = .next (r.setPosu { r.posu with
          intervals := s.posu.netCounts :: s.posu.intervals.take 7, netCounts := 0
          intervalEnd := s.posu.intervalEnd + 100000
          measuredSpeed := 125 * (s.posu.netCounts :: s.posu.intervals.take 7).sum })))) ∧
  ∀ (cause : FailCause) (m : Monitor) (s : State), let t := failover cause m s
    t.posu = { s.posu with
      active := .synth
      synthSpeed := if m.reference ≤ 0 then 0 else if 4000000 ≤ m.reference then 4000000 else m.reference.toNat
      genPhase := 0, pendingSwitch := none, monitor := none
      lastSwitch := match s.posu.pendingSwitch with
        | some p => some { target := p.target, outcome := .cancelledByFailover, stamp := s.stamp }
        | none => s.posu.lastSwitch
      lastFailover := some { source := s.posu.active, cause := cause, stamp := s.stamp, speed := t.posu.synthSpeed } } ∧
    t.rnu.lineView = s.rnu.lineView ||| 0x00000001 ||| (if s.posu.pendingSwitch.isSome then 0x00000004 else 0) ∧
    (∃ k : NoticeSet, t.rnu.officeView = s.rnu.officeView ||| 0x00000001 ||| k ∧ (k = 0 ∨ k = 0x00010000)) ∧
    t.stamp = s.stamp ∧ t.pins = s.pins ∧ t.capu = s.capu ∧ t.itab = s.itab ∧ t.trgu = s.trgu ∧ t.ports = s.ports ∧
    t.packers = s.packers ∧ t.fsto = s.fsto ∧ t.lnk = s.lnk ∧ t.rnu.lineMask = s.rnu.lineMask ∧
    t.rnu.officeMask = s.rnu.officeMask ∧ t.rnu.response = s.rnu.response

/-! ## Edges (02_edge_capture_and_the_item_table.md, 2.1 to 2.3) -/

/-- R23: a pin that leaves its filtered level starts a pending edge with the position and stamp of that moment, or with filter
time 0 is accepted at once; one that comes back ends the pending edge with nothing captured; and one whose filter time has
passed is accepted with what was sampled. A change in device reset moves the pin's level alone. The filter's end carries the
clock to it (log entry 1), and a change away from a pending edge's start is no event of a pin with two levels (log entry 9). -/
def Obligations.FiltersAcceptEdgesAfterTheirTime : Prop :=
  ∀ (i : CaptureInput) (l : Level) (s : State),
    let s1 := { s with pins := s.pins.setLevel i l }
    let u := s.capu.input i
    (inReset s = true → exec (.capturePinChange i l) s = .next s1 ∧ exec (.filterExpiry i) s = .next s) ∧
    (inReset s = false →
      (l = u.filtered → exec (.capturePinChange i l) s =
        .next (s1.setCapu (s.capu.setInput i { u with pendingEdge := none }))) ∧
      (l ≠ u.filtered → u.pendingEdge = none → 0 < u.filter → exec (.capturePinChange i l) s =
        .next (s1.setCapu (s.capu.setInput i { u with pendingEdge := some {
          level := l, position := s.posu.position, stamp := s.stamp
          due := s.stamp + BitVec.ofNat 48 u.filter } }))) ∧
      (l ≠ u.filtered → u.pendingEdge = none → u.filter = 0 → exec (.capturePinChange i l) s =
        .next (classify i l s.posu.position s.stamp
          (s1.setCapu (s.capu.setInput i { u with filtered := l, pendingEdge := none })))) ∧
      (l ≠ u.filtered → u.pendingEdge ≠ none → exec (.capturePinChange i l) s = .next s1) ∧
      (u.pendingEdge = none → exec (.filterExpiry i) s = .next s) ∧
      (∀ e, u.pendingEdge = some e → let r := reachTime e.due s;
        exec (.filterExpiry i) s = .next (classify i e.level e.position e.stamp
          (r.setCapu (s.capu.setInput i { u with filtered := e.level, pendingEdge := none })))))

/-- R24, R26 to R28: an edge whose direction is not selected goes nowhere; a selected one goes where its input and its meaning
send it, an AUX edge by its role. A record offered to fewer than 16 joins the tail of the aux FIFO; one offered to a full FIFO
is dropped and counted, up to 65,535, and sets CAPTURE_OVERFLOW in the LINE view. READ_CAPTURE removes the oldest record and
returns it, with the number left and the dropped count; of an empty FIFO it returns the dropped count alone, answered EMPTY.
Either way the dropped count is then 0. The record's input byte, AUX1 0 and AUX2 1, rests on log entry 15. -/
def Obligations.TheClassifierFillsTheAuxFifo : Prop :=
  (∀ (i : CaptureInput) (l : Level) (pos : Pos) (stamp : Stamp) (s : State),
    let u := s.capu.input i
    let taken := u.edges = .both ∨ (u.edges = .rise ∧ l = .high) ∨ (u.edges = .fall ∧ l = .low)
    (¬taken → classify i l pos stamp s = s) ∧
    (taken →
      (i = .item → classify i l pos stamp s = if l = u.level then leadingEdge pos s else trailingEdge pos s) ∧
      (i = .stop → classify i l pos stamp s = if l = u.level then stopAsserted s else s) ∧
      (∀ a : AuxInput, i = (match a with | .aux1 => .aux1 | .aux2 => .aux2) →
        let r : CaptureRecord := { input := a, edge := match l with | .high => .rise | .low => .fall
                                   position := pos, stamp := stamp };
        classify i l pos stamp s = (match u.role with
          | .capture => offerCapture r s
          | .untilEdge => untilEdge a pos stamp s
          | .both => untilEdge a pos stamp (offerCapture r s)) ∧
        (s.capu.fifo.length < 16 → offerCapture r s = s.setCapu { s.capu with fifo := s.capu.fifo ++ [r] }) ∧
        (16 ≤ s.capu.fifo.length → offerCapture r s =
          (s.setCapu { s.capu with dropped := min 65535 (s.capu.dropped + 1) }).setRnu
            { s.rnu with lineView := s.rnu.lineView ||| 0x00000010 })))) ∧
  ∀ (args : List Byte) (s : State), CanServe .line s →
    (s.capu.fifo = [] → Serves (.readCapture .line args) .line 0x1A args s
      ((ready .line s).setCapu { s.capu with dropped := 0 }) (0x14 :: be 2 s.capu.dropped)) ∧
    (∀ r rest, s.capu.fifo = r :: rest → Serves (.readCapture .line args) .line 0x1A args s
      ((ready .line s).setCapu { s.capu with fifo := rest, dropped := 0 })
      (0x01 :: ([r.input.code, r.edge.code] ++ be 4 r.position.toNat ++ be 6 r.stamp.toNat ++ be 1 rest.length ++
        be 2 s.capu.dropped)))

/-- R18, R70, R57: STOP and the UNTIL edges. An accepted assertion of STOP sets the synthetic speed to 0, ends a pending switch
CANCELLED_BY_STOP, sets STOP in both views, and soft-halts every channel RUNNING a free-running plan, which becomes IDLE at once
where nothing holds it (R68, R71). Active source, position, items, ports and store stay; that the generator's phase stays at an
unchanged speed is log entry 11. An AUX edge delivered to TRGU acts on every channel that is RUNNING an UNTIL plan which names
its input: the edge's position and stamp become the until-mark, and the channel is soft-halted or hard-halted by the plan's
action, as HALT_SOFT and HALT_HARD do it, items, frames and ports included; of several channels, in an order left open (log
entry 2). Every other channel stays as it is. -/
def Obligations.StopAndUntilEdgesHaltTheirPlans : Prop :=
  (∀ s : State, let t := stopAsserted s
    t.posu = { s.posu with
      synthSpeed := 0, genPhase := if s.posu.synthSpeed = 0 then s.posu.genPhase else 0, pendingSwitch := none
      lastSwitch := match s.posu.pendingSwitch with
        | some p => some { target := p.target, outcome := .cancelledByStop, stamp := s.stamp }
        | none => s.posu.lastSwitch } ∧
    t.rnu.lineView = s.rnu.lineView ||| 0x00000008 ||| (if s.posu.pendingSwitch.isSome then 0x00000004 else 0) ∧
    (∃ k : NoticeSet, t.rnu.officeView = s.rnu.officeView ||| 0x00000008 ||| k ∧ (k = 0 ∨ k = 0x00010000)) ∧
    (∀ n, let c := s.chan n
      t.chan n =
        if c.state = .running ∧ c.plan ≠ .item then
          if c.queue = [] ∧ c.window = none ∧ (s.port n).state.atRest = true then
            { c with state := .idle, plan := .off, freeRun := none }
          else { c with state := .halting, freeRun := none }
        else c) ∧
    t.stamp = s.stamp ∧ t.pins = s.pins ∧ t.capu = s.capu ∧ t.itab = s.itab ∧ t.trgu.eject = s.trgu.eject ∧
    t.ports = s.ports ∧ t.packers = s.packers ∧ t.fsto = s.fsto ∧ t.lnk = s.lnk) ∧
  ∀ (input : AuxInput) (pos : Pos) (stamp : Stamp) (s : State), let t := untilEdge input pos stamp s
    (∃ (l : List Unit8) (k : Nat), l.Nodup ∧
      (∀ n, n ∈ l ↔ (s.chan n).state = .running ∧ (s.chan n).plan = .untilEdge ∧
        ((s.chan n).freeRun.bind (·.stopOn)).map (·.1) = some input) ∧
      t = l.foldl (fun u n =>
        let m := u.setChan n { u.chan n with untilMark := some (pos, stamp) }
        if ((s.chan n).freeRun.bind (·.stopOn)).map (·.2) = some .hard then hardHalt n m else softHalt n m)
        { s with orderIndex := s.orderIndex + k }) ∧
    (∀ n, let c := s.chan n
      let on := c.freeRun.bind (·.stopOn)
      t.chan n =
        if c.state = .running ∧ c.plan = .untilEdge ∧ on.map (·.1) = some input then
          if on = some (input, .hard) then { c with
            state := .idle, plan := .off, queue := [], freeRun := none, window := none, untilMark := some (pos, stamp)
            skipped := c.skipped + BitVec.ofNat 32 (c.queue.countP fun e => decide (e.kind ≠ .windowClose)) }
          else if c.queue = [] ∧ c.window = none ∧ (s.port n).state.atRest = true then
            { c with state := .idle, plan := .off, freeRun := none, untilMark := some (pos, stamp) }
          else { c with state := .halting, freeRun := none, untilMark := some (pos, stamp) }
        else c) ∧
    ((∀ n, (s.chan n).state = .running → (s.chan n).plan = .untilEdge →
      ((s.chan n).freeRun.bind (·.stopOn)).map (·.1) ≠ some input) → t = s) ∧
    t.posu = s.posu ∧ t.capu = s.capu ∧ t.stamp = s.stamp ∧ t.pins = s.pins ∧ t.lnk = s.lnk ∧ t.trgu.eject = s.trgu.eject ∧
    t.itab.items.map (·.number) = s.itab.items.map (·.number)

/-! ## Items (02, 2.4 to 2.10, and 07_verdicts_and_ejection.md) -/

/-- R32, R35, R41, R138: items are made. DECLARE_ITEM goes by the first of its cases that applies; each refusal changes nothing,
and the last case appends a TRACKED item, with the tag where one is given (R188), and answers with its number. An item appended
takes the next number and its place at the tail; the next number advances, from 16,777,215 to 1, and the assigned count rises to
at most 8,388,608. The items before it keep their numbers and their order, and POSU, CAPU and the link are untouched. A leading
edge at p makes an ENTERING item that starts there; where its eject position has been reached it is retired at once, and where
its greatest length has, it is ended at once; that a retirement leaves no item to end is log entry 10. -/
def Obligations.ItemsAreDeclaredAndMadeFromEdges : Prop :=
  (∀ (args : List Byte) (s : State), 8 ≤ args.length → CanServe .line s →
    let start := BitVec.ofNat 32 (argNat args 0 4)
    let len := argNat args 4 4
    let g := s.itab.geometry
    let r := ready .line s
    let said := Serves (.declareItem .line args) .line 0x24 args s r
    if len = 0 ∨ g.maxLength < len then said [0x03]
    else if newestEntering s = true then said [0x02]
    else if (∃ it, s.itab.items.getLast? = some it ∧
        (¬(g.minGap ≤ (start - it.start).toNat ∧ (start - it.start).toNat < 2 ^ 31) ∨
          ∃ e, it.endPos = some e ∧ behind start e = true)) then said [0x12]
    else if passed (firstShot s start) s.posu.position = true then said [0x11]
    else if 64 ≤ s.itab.items.length then said [0x0D]
    else
      let it : Item := {
        number := s.itab.nextNumber, origin := .declared, state := .tracked, start := start
        endPos := some (start + BitVec.ofNat 32 len), ejectAt := start + BitVec.ofNat 32 g.ejectDistance
        tag := if 12 ≤ args.length then some (BitVec.ofNat 32 (argNat args 8 4)) else none };
      Serves (.declareItem .line args) .line 0x24 args s (createDeclared it r) (0x01 :: be 3 it.number)) ∧
  (∀ (it : Item) (s : State), it.number = s.itab.nextNumber → let t := appendItem it s
    t.itab.items.map (·.number) = s.itab.items.map (·.number) ++ [it.number] ∧
    t.itab.nextNumber = (if s.itab.nextNumber = 16777215 then 1 else s.itab.nextNumber + 1) ∧
    t.itab.assigned = min 8388608 (s.itab.assigned + 1) ∧ t.itab.geometry = s.itab.geometry ∧
    t.itab.blind = s.itab.blind ∧ t.itab.suppression = s.itab.suppression ∧ t.itab.retired = s.itab.retired ∧
    t.posu = s.posu ∧ t.capu = s.capu ∧ t.lnk = s.lnk ∧ t.pins = s.pins ∧ t.stamp = s.stamp ∧
    ((∀ n, takesPart (s.chan n) = false) → t = s.setItab { s.itab with
      items := s.itab.items ++ [it]
      nextNumber := if s.itab.nextNumber = 16777215 then 1 else s.itab.nextNumber + 1
      assigned := min 8388608 (s.itab.assigned + 1) })) ∧
  ∀ (p : Pos) (s : State), (∀ i ∈ s.itab.items, i.number ≠ s.itab.nextNumber) →
    let g := s.itab.geometry
    let it : Item := {
      number := s.itab.nextNumber, origin := .sensor, state := .entering, start := p, endPos := none
      ejectAt := p + BitVec.ofNat 32 g.ejectDistance }
    let t := appendItem it s
    ∃ it', findItem t it.number = some it' ∧ it' = { it with shots := it'.shots, flags := it'.flags } ∧
      t.itab.items = s.itab.items ++ [it'] ∧
      createFromEdge p s =
        if passed it.ejectAt s.posu.position = true then retireItem it' t
        else if passed (p + BitVec.ofNat 32 g.maxLength) s.posu.position = true then
          endItem it.number (p + BitVec.ofNat 32 g.maxLength) true t
        else t

/-- R34, R36, R37, R44: the ITEM edges. A leading one clears the suppression, and then is refused and counted, or overflows a
full table and is offered to the blind list, or makes an item; the table changes in the last case alone. A position joins the
blind list before the first entry that lies farther ahead of the present position than it does, and so after an equal one; an
entry at the present position counts as a whole turn away (log entry 28). A trailing one is consumed by the suppression, or ends
the ENTERING item with its end kept within 1 and MAX_ITEM_LENGTH ahead of its start, or is ignored. -/
def Obligations.ItemEdgesMakeAndEndItems : Prop :=
  (∀ (now p : Pos) (l : List Pos), let ahead := fun (q : Pos) => (q - now - 1).toNat
    ∃ a b, l = a ++ b ∧ placeBlind now p l = a ++ p :: b ∧ (∀ q ∈ a, ahead q ≤ ahead p) ∧
      ∀ q, b.head? = some q → ahead p < ahead q) ∧
  (∀ (p : Pos) (s : State), let g := s.itab.geometry
    (refusesEdge s.itab p = true ↔ ∃ it, s.itab.items.getLast? = some it ∧
      (it.state = .entering ∨ ¬(g.minGap ≤ (p - it.start).toNat ∧ (p - it.start).toNat < 2 ^ 31) ∨
        ∃ e, it.endPos = some e ∧ behind p e = true)) ∧
    (refusesEdge s.itab p = true → leadingEdge p s = s.setItab { s.itab with
      refusedEdges := s.itab.refusedEdges + 1, suppression := true }) ∧
    (refusesEdge s.itab p = false → s.itab.items.length < 64 →
      leadingEdge p s = createFromEdge p (s.setItab { s.itab with suppression := false })) ∧
    (refusesEdge s.itab p = false → 64 ≤ s.itab.items.length →
      let o := setBoth .itemOverflow (s.setItab { s.itab with
        overflowEdges := s.itab.overflowEdges + 1, suppression := true })
      let e := p + BitVec.ofNat 32 g.ejectDistance
      (g.blindPolicy = .ignore → leadingEdge p s = o) ∧
      (g.blindPolicy = .reject → s.itab.blind.length < 8 → leadingEdge p s = o.setItab { o.itab with
        blind := placeBlind s.posu.position e s.itab.blind }) ∧
      (g.blindPolicy = .reject → 8 ≤ s.itab.blind.length → leadingEdge p s =
        setBoth .blindLost (o.setItab { o.itab with blindLost := s.itab.blindLost + 1 })))) ∧
  ∀ (q : Pos) (s : State),
    (s.itab.suppression = true → trailingEdge q s = s.setItab { s.itab with suppression := false }) ∧
    (s.itab.suppression = false → newestEntering s = false → trailingEdge q s = s) ∧
    (∀ it, s.itab.suppression = false → s.itab.items.getLast? = some it → it.state = .entering →
      let d := (q - it.start).toNat
      let e := if 1 ≤ d ∧ d < 2 ^ 31 then
          (if d ≤ s.itab.geometry.maxLength then q else it.start + BitVec.ofNat 32 s.itab.geometry.maxLength)
        else it.start + 1;
      trailingEdge q s = endItem it.number e false s)

/-- R37 to R40, R169: the end of an item, reports and completion. A report changes the entry and the flag that R39's table gives
it, where the entry before is the table's, and nothing otherwise. An end makes the item TRACKED, with LONG for a forced one, and
asks for the close on each SCAN channel whose entry is PENDING, FIRED or TAKEN, from channel 0 to 7 (log entry 22). After
either, an item whose end is known and whose entries are all NONE, TAKEN or MISSED, and that is not COMPLETE, becomes COMPLETE
and one ITEM_READY is queued for it; a message finds room while the link is UP and the control queue has a place, and is
otherwise counted dropped with MESSAGE_LOST. -/
def Obligations.ReportsSettleItemsAndEndsCompleteThem : Prop :=
  (∀ (it : Item) (ch : Unit8) (h k : Handle) (m x : MissReason),
    let at_ := fun (e : Shot) => { it with shots := it.shots.set ch e }
    let put := fun (e : Shot) (b a : Item) (r : Report) => b = at_ e → b.apply ch r = a
    let flag := fun (e : Shot) => { at_ e with flags := { it.flags with missedShot := true } }
    put .pending (at_ .pending) (at_ (.fired h)) (.fired h) ∧
    put .pending (at_ .pending) (flag (.missed m)) (.missed m) ∧
    put (.fired h) (at_ (.fired h)) (flag (.missed .noFrame)) .expired ∧
    put (.fired h) (at_ (.fired h)) (at_ (.taken h)) .completed ∧
    put (.fired h) (at_ (.fired h)) { at_ (.taken h) with flags := { it.flags with truncatedFrame := true } } .truncated ∧
    put (.fired h) (at_ (.fired h)) { at_ (.fired h) with flags := { it.flags with conversionFault := true } } .fault ∧
    (it.shots[ch] ≠ .pending → it.apply ch (.fired k) = it ∧ it.apply ch (.missed x) = it) ∧
    ((∀ k, it.shots[ch] ≠ .fired k) → it.apply ch .expired = it ∧ it.apply ch .completed = it ∧
      it.apply ch .truncated = it ∧ it.apply ch .fault = it)) ∧
  (∀ (n : Nat) (ch : Unit8) (r : Report) (s : State), report n ch r s = completeIfSettled n (s.setItab { s.itab with
    items := s.itab.items.map fun it => if it.number = n then it.apply ch r else it })) ∧
  (∀ (n : Nat) (s : State),
    (findItem s n = none → completeIfSettled n s = s) ∧
    (∀ it, findItem s n = some it →
      let done := it.endPos ≠ none ∧ ∀ ch : Unit8, it.shots[ch] ≠ .pending ∧ ∀ h, it.shots[ch] ≠ .fired h
      (it.state = .complete ∨ ¬done → completeIfSettled n s = s) ∧
      (it.state ≠ .complete → done → ∀ e, it.endPos = some e → completeIfSettled n s =
        queueMessage 0x01
          (be 3 it.number ++ optTag it.tag ++ be 4 it.start.toNat ++ be 4 (e - it.start).toNat ++ [it.flags.byte] ++
            it.shotList)
          (s.setItab { s.itab with
            items := s.itab.items.map fun i => if i.number = n then { i with state := .complete } else i })))) ∧
  (∀ (type : Byte) (b : List Byte) (s : State),
    (s.lnk.state = .up → occupancy s.fwd < 32 → queueMessage type b s = s.setFwd { s.fwd with
      control := s.fwd.control ++ [{ frames := [{ kind := .message, tag := 0, op := type, body := b }] }] }) ∧
    (s.lnk.state ≠ .up ∨ 32 ≤ occupancy s.fwd → queueMessage type b s = setOffice .messageLost (s.setFwd { s.fwd with
      counters := { s.fwd.counters with messagesDropped := s.fwd.counters.messagesDropped + 1 } }))) ∧
  ∀ (n : Nat) (e : Pos) (long : Bool) (s : State) (it : Item), findItem s n = some it → it.state = .entering →
    let t := endItem n e long s
    (∃ it', findItem t n = some it' ∧ it'.endPos = some e ∧ it'.state ≠ .entering ∧ it'.start = it.start ∧
      it'.ejectAt = it.ejectAt ∧ it'.tag = it.tag ∧ it'.officeVerdict = it.officeVerdict ∧
      it'.lineOverride = it.lineOverride ∧ it'.flags.long = (long || it.flags.long)) ∧
    (∀ ch, let asked := (s.port ch).kind = .scan ∧ (it.shots[ch] = .pending ∨ ∃ h, it.shots[ch] = .fired h ∨
        it.shots[ch] = .taken h)
      (asked → t.chan ch = (scheduleClose ch n (e + BitVec.ofNat 32 (s.chan ch).offset) s).chan ch) ∧
      (¬asked → t.chan ch = s.chan ch)) ∧
    t.itab.items.map (·.number) = s.itab.items.map (·.number) ∧ t.posu = s.posu ∧ t.capu = s.capu ∧ t.lnk = s.lnk ∧
    t.trgu.eject = s.trgu.eject

/-- R33, R42, R135, R136: the requests that write one field of an item. TAG_ITEM, VERDICT and OVERRIDE write one field of the
live item they name, and nothing else; a verdict outranked by an override is answered OVERRIDDEN and counted; and a CLEAR of no
override is REDUNDANT. One that names no live item, WITHDRAW_ITEM among them, is answered GONE where the number was assigned
within the assigned count, and UNKNOWN_ITEM otherwise. It changes nothing, but for a late VERDICT, which is counted. A value
that is no verdict and no choice is answered BAD_ARG. -/
def Obligations.TagsAndVerdictsWriteOneFieldOfALiveItem : Prop :=
  (∀ (args : List Byte) (s : State) (it : Item), findItem s (argNat args 0 3) = some it →
    (7 ≤ args.length → CanServe .line s → Serves (.tagItem .line args) .line 0x25 args s
      (modItem it.number (fun i => { i with tag := some (BitVec.ofNat 32 (argNat args 3 4)) }) (ready .line s)) [0x01]) ∧
    (∀ tag v, 4 ≤ args.length → CanServe (.office tag) s → argNat args 3 1 = v.code.toNat → let r := ready (.office tag) s
      Serves (.verdict (.office tag) args) (.office tag) 0x60 args s
        (if it.lineOverride = none then modItem it.number (fun i => { i with officeVerdict := some v }) r
          else r.setItab { s.itab with overridden := s.itab.overridden + 1 })
        (if it.lineOverride = none then [0x01] else [0x10])) ∧
    (∀ v : Verdict, 4 ≤ args.length → CanServe .line s → argNat args 3 1 = v.code.toNat →
      Serves (.override .line args) .line 0x61 args s
        (modItem it.number (fun i => { i with lineOverride := some v }) (ready .line s)) [0x01]) ∧
    (4 ≤ args.length → CanServe .line s → argNat args 3 1 = 0 →
      Serves (.override .line args) .line 0x61 args s
        (if it.lineOverride = none then ready .line s
          else modItem it.number (fun i => { i with lineOverride := none }) (ready .line s))
        (if it.lineOverride = none then [0x0F] else [0x01]))) ∧
  ∀ (args : List Byte) (s : State), let n := argNat args 0 3
    let back := (s.itab.nextNumber + 16777215 - n) % 16777215
    let gone := n ≠ 0 ∧ 1 ≤ back ∧ back ≤ s.itab.assigned
    (findItem s n = none → let a : Answer := if gone then [0x08] else [0x07]
      (7 ≤ args.length → CanServe .line s → Serves (.tagItem .line args) .line 0x25 args s (ready .line s) a) ∧
      (3 ≤ args.length → CanServe .line s → Serves (.withdrawItem .line args) .line 0x26 args s (ready .line s) a) ∧
      (4 ≤ args.length → CanServe .line s → argNat args 3 1 ≤ 2 →
        Serves (.override .line args) .line 0x61 args s (ready .line s) a) ∧
      (∀ tag, 4 ≤ args.length → CanServe (.office tag) s → argNat args 3 1 = 1 ∨ argNat args 3 1 = 2 →
        Serves (.verdict (.office tag) args) (.office tag) 0x60 args s
          (if gone then (ready (.office tag) s).setItab { s.itab with lateVerdicts := s.itab.lateVerdicts + 1 }
            else ready (.office tag) s) a)) ∧
    (4 ≤ args.length → CanServe .line s → 3 ≤ argNat args 3 1 →
      Serves (.override .line args) .line 0x61 args s (ready .line s) [0x03]) ∧
    (∀ tag, 4 ≤ args.length → CanServe (.office tag) s → argNat args 3 1 = 0 ∨ 3 ≤ argNat args 3 1 →
      Serves (.verdict (.office tag) args) (.office tag) 0x60 args s (ready (.office tag) s) [0x03])

/-- R43, R61, R125, R144: WITHDRAW_ITEM takes a live item out of the table, with no eject request. Its entries leave the shot
queues; a window of it with a known close keeps that close detached, and one without is closed at once. The others keep their
order and their numbers, the withdrawn count rises by one, and the next item number and the suppression stay. Every record that
names it and has no verdict copy takes WITHDRAWN with source LINE and no new holder, and one ITEM_RETIRED is offered with the
state and the flags it had and the stamp at which it was taken. -/
def Obligations.WithdrawTakesAnItemOutOfTheTable : Prop :=
  ∀ (args : List Byte) (s : State) (it : Item), 3 ≤ args.length → CanServe .line s →
    findItem s (argNat args 0 3) = some it →
    ∃ u : State,
      (let q := queueMessage 0x02 (be 3 it.number ++ optTag it.tag ++ [3, 0, it.state.code, it.flags.byte] ++
          be 4 it.ejectAt.toNat ++ be 6 s.stamp.toNat) u;
        Serves (.withdrawItem .line args) .line 0x26 args s
          (q.setItab { q.itab with withdrawn := s.itab.withdrawn + 1 }) [0x01]) ∧
      u.itab.items.map (·.number) = (s.itab.items.map (·.number)).filter (· ≠ it.number) ∧
      u.itab.nextNumber = s.itab.nextNumber ∧ u.itab.assigned = s.itab.assigned ∧
      u.itab.suppression = s.itab.suppression ∧ u.itab.retired = s.itab.retired ∧ u.itab.blind = s.itab.blind ∧
      u.trgu.eject = s.trgu.eject ∧ u.posu = s.posu ∧ u.capu = s.capu ∧ u.lnk = s.lnk ∧ u.fsto.pool = s.fsto.pool ∧
      (∀ n, (u.chan n).queue = (s.chan n).queue.filter fun e => decide (e.item ≠ it.number)) ∧
      (∀ n w, (s.chan n).window = some w →
        (w.item ≠ it.number → (u.chan n).window = some w) ∧
        (w.item = it.number → (u.chan n).window = w.close.map fun k => { w with close := some (k.1, .detached) })) ∧
      (∀ h f, recordAt s h = some f → ∃ f', recordAt u h = some f' ∧ f'.item = f.item ∧ f'.holders = f.holders ∧
        f'.copy = (if f.item = it.number ∧ f.copy = .none then .withdrawn else f.copy) ∧
        f'.copySource = if f.item = it.number ∧ f.copy = .none then some .line else f.copySource)

/-- R137 to R145, R125, R182: the retirement of an item settles its final verdict from its override, else its office verdict,
else DEFAULT_VERDICT; takes it out of the queues and the table; makes one eject request for REJECT and none for PASS; writes the
verdict and its source into every record that names it and has none, with OFFICE added to the holders of a REJECT under
HOLD_REJECTED; applies the auto-full policy to each of those, which under ON_REJECT is due for a REJECT frame that has ended, in
an order left open (log entry 2); offers one ITEM_RETIRED; sets DEFAULT_APPLIED for a default; raises its retirement count and
writes the last retirement record. The stamp is that of the event at which the item is retired, which for one retired at its
creation is the acceptance of its edge (log entry 27). POSU, CAPU, the link and the assigned numbers stay. -/
def Obligations.RetirementSettlesTheFinalVerdict : Prop :=
  ∀ (it : Item) (s : State), let t := retireItem it s
    let f := finalVerdict s.itab.geometry it
    (∀ v, it.lineOverride = some v → f = (v, .line)) ∧
    (∀ v, it.lineOverride = none → it.officeVerdict = some v → f = (v, .office)) ∧
    (it.lineOverride = none → it.officeVerdict = none → f = (s.itab.geometry.defaultVerdict, .default)) ∧
    t.itab.items.map (·.number) = (s.itab.items.map (·.number)).filter (· ≠ it.number) ∧
    t.itab.retired = s.itab.retired.raise f.1 f.2 ∧
    t.itab.lastRetirement = some {
      number := it.number, verdict := f.1, source := f.2, position := it.ejectAt, stamp := s.stamp } ∧
    t.trgu.eject = (if f.1 = .reject then { s.trgu.eject with
      upTo := some (s.stamp + BitVec.ofNat 48 (s.trgu.eject.width * 100)), count := s.trgu.eject.count + 1 }
      else s.trgu.eject) ∧
    t.itab.nextNumber = s.itab.nextNumber ∧ t.itab.assigned = s.itab.assigned ∧ t.itab.withdrawn = s.itab.withdrawn ∧
    t.itab.blind = s.itab.blind ∧ t.posu = s.posu ∧ t.capu = s.capu ∧ t.lnk = s.lnk ∧ t.stamp = s.stamp ∧
    (∀ n, (t.chan n).queue = (s.chan n).queue.filter fun e => decide (e.item ≠ it.number)) ∧
    ∃ (w : State) (l : List Handle), l.Nodup ∧ (∀ h ∈ l, recordAt s h ≠ none) ∧
      (∀ h g, recordAt s h = some g → ∃ g', recordAt w h = some g' ∧ g'.item = g.item ∧
        (if g.item = it.number ∧ g.copy = .none then
          g'.copy = (match f.1 with | .pass => .pass | .reject => .reject) ∧ g'.copySource = some f.2 ∧
          g'.holders = (if s.fwd.holdRejected = true ∧ f.1 = .reject then { g.holders with office := true } else g.holders) ∧
          (h ∈ l ↔ f.1 = .reject ∧ g'.state.finished = true ∧ g'.fullState = .none ∧ s.fwd.autoFull[g'.port] = .onReject)
        else g'.copy = g.copy ∧ g'.copySource = g.copySource ∧ g'.holders = g.holders ∧ h ∉ l)) ∧
      (let m := queueMessage 0x02 (be 3 it.number ++ optTag it.tag ++
          [match f.1 with | .pass => 1 | .reject => 2, match f.2 with | .line => 0 | .office => 1 | .default => 2,
            it.state.code, it.flags.byte] ++ be 4 it.ejectAt.toNat ++ be 6 s.stamp.toNat)
          (l.foldl (fun u h => applyAutoFull false h u) w)
        let d := if f.2 = .default then setOffice .defaultApplied m else m
        t = d.setItab { d.itab with retired := t.itab.retired, lastRetirement := t.itab.lastRetirement })

/-! ## Trigger channels (03_trigger_channels.md) -/

/-- R52, R53, R73: SET_CHANNEL writes the offset and the scan pitch of an IDLE channel with an empty queue, where the eject
distance clears them; SET_PULSE writes the shadow settings in any state; SET_EJECT writes the eject width. A value outside its
range is answered BAD_ARG and a channel with work BUSY, and neither changes anything. -/
def Obligations.ChannelPulseAndEjectSettings : Prop :=
  ∀ (args : List Byte) (s : State), CanServe .line s → let r := ready .line s
    (7 ≤ args.length → let offset := argNat args 1 4
      (8 ≤ argNat args 0 1 ∨ 16777216 < offset ∨ argNat args 5 2 = 0 ∨
          s.itab.geometry.ejectDistance ≤ s.itab.geometry.maxLength + offset →
        Serves (.setChannel .line args) .line 0x31 args s r [0x03]) ∧
      (∀ n : Unit8, argNat args 0 1 = n.val → offset ≤ 16777216 → 1 ≤ argNat args 5 2 →
        s.itab.geometry.maxLength + offset < s.itab.geometry.ejectDistance →
        ((s.chan n).state = .idle → (s.chan n).queue = [] → Serves (.setChannel .line args) .line 0x31 args s
          (r.setChan n { s.chan n with offset := offset, scanPitch := argNat args 5 2 }) [0x01]) ∧
        ((s.chan n).state ≠ .idle ∨ (s.chan n).queue ≠ [] →
          Serves (.setChannel .line args) .line 0x31 args s r [0x02]))) ∧
    (8 ≤ args.length →
      (8 ≤ argNat args 0 1 ∨ argNat args 1 2 = 0 ∨ 2 ≤ argNat args 3 1 ∨ argNat args 6 2 = 0 →
        Serves (.setPulse .line args) .line 0x32 args s r [0x03]) ∧
      (∀ (n : Unit8) (b : Bool), argNat args 0 1 = n.val → argNat args 3 1 = b.toNat → 1 ≤ argNat args 1 2 →
        1 ≤ argNat args 6 2 → Serves (.setPulse .line args) .line 0x32 args s
          (r.setChan n { s.chan n with shadow := {
            width := argNat args 1 2, strobe := b, strobeDelay := argNat args 4 2, strobeWidth := argNat args 6 2 } })
          [0x01])) ∧
    (2 ≤ args.length →
      (argNat args 0 2 = 0 → Serves (.setEject .line args) .line 0x3A args s r [0x03]) ∧
      (1 ≤ argNat args 0 2 → Serves (.setEject .line args) .line 0x3A args s
        (r.setEject { s.trgu.eject with width := argNat args 0 2 }) [0x01]))

/-- R54 to R57: the four plans. Each starts by its rule, with its free-running target set from the position at acceptance, or
from the last target of the PITCH or UNTIL plan that it replaces; or is answered BAD_ARG or BUSY and changes nothing. The
numbers of RUN_UNTIL's inputs, AUX1 0 and AUX2 1, rest on log entry 15. -/
def Obligations.PlansStartByTheirRules : Prop :=
  ∀ (args : List Byte) (s : State), CanServe .line s → let r := ready .line s
    (1 ≤ args.length → 8 ≤ argNat args 0 1 → Serves (.planItem .line args) .line 0x33 args s r [0x03]) ∧
    (5 ≤ args.length → 8 ≤ argNat args 0 1 ∨ argNat args 1 4 = 0 ∨ 16777216 < argNat args 1 4 →
      Serves (.runPitch .line args) .line 0x34 args s r [0x03]) ∧
    (7 ≤ args.length → 8 ≤ argNat args 0 1 ∨ argNat args 1 2 = 0 ∨ argNat args 3 4 = 0 ∨ 16777216 < argNat args 3 4 →
      Serves (.shootCount .line args) .line 0x35 args s r [0x03]) ∧
    (7 ≤ args.length → 8 ≤ argNat args 0 1 ∨ argNat args 1 4 = 0 ∨ 16777216 < argNat args 1 4 ∨ 2 ≤ argNat args 5 1 ∨
        2 ≤ argNat args 6 1 → Serves (.runUntil .line args) .line 0x36 args s r [0x03]) ∧
    ∀ n : Unit8, argNat args 0 1 = n.val → let c := s.chan n
      let open_ := c.state = .idle ∨ (c.state = .running ∧ (c.plan = .pitch ∨ c.plan = .untilEdge))
      let last := if c.state = .idle then none else c.freeRun.bind (·.last)
      (1 ≤ args.length →
        if s.itab.geometry.ejectDistance ≤ s.itab.geometry.maxLength + c.offset then
          Serves (.planItem .line args) .line 0x33 args s r [0x03]
        else if c.state ≠ .idle then Serves (.planItem .line args) .line 0x33 args s r [0x02]
        else Serves (.planItem .line args) .line 0x33 args s
          (r.setChan n { c with state := .running, plan := .item }) [0x01]) ∧
      (5 ≤ args.length → 1 ≤ argNat args 1 4 → argNat args 1 4 ≤ 16777216 →
        if (s.port n).kind = .scan then Serves (.runPitch .line args) .line 0x34 args s r [0x03]
        else if ¬open_ then Serves (.runPitch .line args) .line 0x34 args s r [0x02]
        else Serves (.runPitch .line args) .line 0x34 args s (r.setChan n { c with
          state := .running, plan := .pitch
          freeRun := some { next := last.getD s.posu.position + BitVec.ofNat 32 (argNat args 1 4), last := last
                            pitch := argNat args 1 4 } }) [0x01]) ∧
      (7 ≤ args.length → 1 ≤ argNat args 1 2 → 1 ≤ argNat args 3 4 → argNat args 3 4 ≤ 16777216 →
        if (s.port n).kind = .scan then Serves (.shootCount .line args) .line 0x35 args s r [0x03]
        else if c.state ≠ .idle then Serves (.shootCount .line args) .line 0x35 args s r [0x02]
        else Serves (.shootCount .line args) .line 0x35 args s (r.setChan n { c with
          state := .running, plan := .count
          freeRun := some { next := s.posu.position + BitVec.ofNat 32 (argNat args 3 4), pitch := argNat args 3 4
                            remaining := some (argNat args 1 2) } }) [0x01]) ∧
      (∀ i a, 7 ≤ args.length → 1 ≤ argNat args 1 4 → argNat args 1 4 ≤ 16777216 → auxOf (argNat args 5 1) = some i →
        actionOf (argNat args 6 1) = some a →
        if (s.port n).kind = .scan then Serves (.runUntil .line args) .line 0x36 args s r [0x03]
        else if ¬open_ then Serves (.runUntil .line args) .line 0x36 args s r [0x02]
        else Serves (.runUntil .line args) .line 0x36 args s (r.setChan n { c with
          state := .running, plan := .untilEdge
          freeRun := some { next := last.getD s.posu.position + BitVec.ofNat 32 (argNat args 1 4), last := last
                            pitch := argNat args 1 4, stopOn := some (i, a) } }) [0x01])

/-- R67 to R69, R71, R91: the halts. Each is taken on every named channel that is not IDLE, in an order left open (log entry 2),
and is answered OK. A soft halt takes a RUNNING channel to HALTING, without its free-running target where its plan has one, and
to IDLE at once where nothing holds it. A hard halt of a channel that is not IDLE removes its queue, from head to tail (log
entry 22), with each AREA_SHOT and WINDOW_OPEN counted skipped and reported MISSED(HALTED) to its item; removes the target; and
cuts the frame in flight short. The frame becomes TRUNCATED(HALTED) with the lines it has, is counted truncated, and its timer
is cancelled: an ARMED port returns to IDLE, and an AREA port in RECEIVING goes DRAINING. Under an open window a FILLING frame
is truncated, the window is removed, and a RECEIVING or DRAINING port returns to IDLE. A port in another state stays. The
channel is then IDLE with plan OFF. Pulses, settings and fired counts stay (R66), and so does every other channel and port. -/
def Obligations.HaltsActOnTheNamedChannels : Prop :=
  (∀ (args : List Byte) (s : State), 1 ≤ args.length → CanServe .line s → ∃ (l : List Unit8) (k : Nat),
    l.Nodup ∧ (∀ n, n ∈ l ↔ (argNat args 0 1).testBit n.val = true ∧ (s.chan n).state ≠ .idle) ∧
    let r := { ready .line s with orderIndex := s.orderIndex + k }
    Serves (.haltSoft .line args) .line 0x37 args s (l.foldl (fun t n => softHalt n t) r) [0x01] ∧
    Serves (.haltHard .line args) .line 0x38 args s (l.foldl (fun t n => hardHalt n t) r) [0x01]) ∧
  (∀ (n : Unit8) (s : State), let c := s.chan n
    softHalt n s =
      if c.state = .running then
        if c.queue = [] ∧ c.window = none ∧ (s.port n).state.atRest = true then
          s.setChan n { c with state := .idle, plan := .off, freeRun := none }
        else s.setChan n { c with state := .halting, freeRun := if c.plan = .item then c.freeRun else none }
      else s) ∧
  ∀ (n : Unit8) (s : State), let c := s.chan n
    (c.state = .idle → hardHalt n s = s) ∧
    (c.state ≠ .idle →
      let p := s.port n
      let t := hardHalt n s
      let cut := match c.window with
        | none => p.state = .armed ∨ p.state = .receiving
        | some w => p.current = some w.handle ∧ (recordAt s w.handle).any (fun r => decide (r.state = .filling)) = true
      let reported := c.queue.foldl (fun u e =>
        if e.kind = .windowClose then u
        else report e.item n (.missed .halted) (u.setChan n { u.chan n with skipped := (u.chan n).skipped + 1 }))
        (s.setChan n { c with queue := [] })
      let u := reported.setChan n { reported.chan n with freeRun := none }
      let state := match c.window, p.state with
        | none, .armed => .idle
        | none, .receiving => .draining
        | some _, .receiving => .idle
        | some _, .draining => .idle
        | _, x => x
      (∃ v : State, ((cut ∧ v = truncateFrame n .halted u) ∨ (¬cut ∧ v = u)) ∧
        t = (v.setPort n { v.port n with state := state }).setChan n { v.chan n with
          state := .idle, plan := .off, window := none }) ∧
      t.chan n = { c with
        state := .idle, plan := .off, queue := [], freeRun := none, window := none
        skipped := c.skipped + BitVec.ofNat 32 (c.queue.countP fun e => decide (e.kind ≠ .windowClose)) } ∧
      (cut → t.port n = { p with
        state := state, current := none, windowEnd := if p.current.isSome then none else p.windowEnd
        counters := { p.counters with truncated := p.counters.truncated + 1 } }) ∧
      (¬cut → t.port n = { p with state := state } ∧ t.fsto = s.fsto) ∧
      (∀ m, m ≠ n → t.chan m = s.chan m ∧ t.port m = s.port m) ∧
      (∀ h f, cut → p.current = some h → recordAt s h = some f → ∃ f', recordAt t h = some f' ∧
        f'.state = .truncated .halted ∧ f'.endStamp = some s.stamp ∧ f'.lines = f.lines ∧ f'.fullBlocks = f.fullBlocks ∧
        t.fsto.age = s.fsto.age ++ [h]) ∧
      (∀ e ∈ c.queue, e.kind ≠ .windowClose → ∀ it, findItem s e.item = some it → it.shots[n] = .pending →
        ∃ it', findItem t e.item = some it' ∧ it'.shots[n] = .missed .halted ∧ it'.flags.missedShot = true) ∧
      t.itab.items.map (·.number) = s.itab.items.map (·.number) ∧ t.posu = s.posu ∧ t.capu = s.capu ∧
      t.trgu.eject = s.trgu.eject ∧ t.lnk = s.lnk ∧ t.stamp = s.stamp ∧ t.pins = s.pins)

/-- R66, R72: a trigger pulse raises TRIGn for the width of the active settings, and with strobe enabled starts its strobe
sequence anew; an eject request raises EJECT for EJECT_WIDTH and is counted. Each output ends at its timer, with the clock
carried to it (log entry 1), and nothing else changes. The event of a timer that does not run changes nothing, nor does any in
device reset (log entry 9). -/
def Obligations.PulsesLastForTheirWidths : Prop :=
  ∀ (n : Unit8) (s : State), let c := s.chan n
    startPulse n s = s.setChan n { c with
      trigger := some (s.stamp + BitVec.ofNat 48 c.active.width)
      strobe := if c.active.strobe = false then c.strobe
        else if c.active.strobeDelay = 0 then .high (s.stamp + BitVec.ofNat 48 c.active.strobeWidth)
        else .delaying (s.stamp + BitVec.ofNat 48 c.active.strobeDelay) c.active.strobeWidth } ∧
    ejectRequest s = s.setEject { s.trgu.eject with
      upTo := some (s.stamp + BitVec.ofNat 48 (s.trgu.eject.width * 100)), count := s.trgu.eject.count + 1 } ∧
    (inReset s = true → exec .ejectPulseEnd s = .next s ∧ exec (.triggerPulseEnd n) s = .next s ∧
      exec (.strobeDelayEnd n) s = .next s ∧ exec (.strobePulseEnd n) s = .next s) ∧
    (s.trgu.eject.upTo = none → exec .ejectPulseEnd s = .next s) ∧
    (c.trigger = none → exec (.triggerPulseEnd n) s = .next s) ∧
    ((∀ t w, c.strobe ≠ .delaying t w) → exec (.strobeDelayEnd n) s = .next s) ∧
    ((∀ t, c.strobe ≠ .high t) → exec (.strobePulseEnd n) s = .next s) ∧
    (inReset s = false → ∀ t w,
      (s.trgu.eject.upTo = some t → exec .ejectPulseEnd s =
        .next ((reachTime t s).setEject { s.trgu.eject with upTo := none })) ∧
      (c.trigger = some t → exec (.triggerPulseEnd n) s = .next ((reachTime t s).setChan n { c with trigger := none })) ∧
      (c.strobe = .delaying t w → exec (.strobeDelayEnd n) s =
        .next ((reachTime t s).setChan n { c with strobe := .high (t + BitVec.ofNat 48 w) })) ∧
      (c.strobe = .high t → exec (.strobePulseEnd n) s = .next ((reachTime t s).setChan n { c with strobe := .low })))

/-- R62, R81, R119, R120: an AREA shot at its position. It misses on a port that is not IDLE, which FSTO is then not asked
about, and on a store that gives no record: its report, its skip count and MISSED_SHOT follow, in that order by log entry 22.
Otherwise the record takes the lowest free slot, or the slot of the oldest eligible record, the shadow settings are copied, the
pulse starts, the port is ARMED with its frame window running, and FIRED is reported. -/
def Obligations.ShotsFireOrMissByTheirPort : Prop :=
  ∀ (n : Unit8) (item : Nat) (pos : Pos) (s : State),
    let miss := fun r (t : State) => setBoth .missedShot (countSkip n (report item n (.missed r) t))
    ((s.port n).state = .disabled ∨ (s.port n).state = .unlocked → takeAreaShot n item pos s = miss .cameraLost s) ∧
    ((s.port n).state = .armed ∨ (s.port n).state = .receiving ∨ (s.port n).state = .draining →
      takeAreaShot n item pos s = miss .cameraBusy s) ∧
    ((s.port n).state = .idle →
      (freeSlot s = none → oldestEligible s = none → takeAreaShot n item pos s = miss .storeFull
        (setBoth .storeFull (s.setFsto { s.fsto with recordShortages := s.fsto.recordShortages + 1 }))) ∧
      (∀ i t, (freeSlot s = some i ∧ t = s) ∨
          (∃ old, freeSlot s = none ∧ oldestEligible s = some old ∧ i = old.slot ∧ t = evict old s) →
        takeAreaShot n item pos s =
          report item n (.fired { slot := i, gen := t.fsto.slots[i].gen })
            (fireArea n { slot := i, gen := t.fsto.slots[i].gen }
              (t.setSlot i { gen := t.fsto.slots[i].gen, record := some {
                port := n, item := item, state := .expected, shotPosition := pos, fireStamp := s.stamp
                format := (s.packer n).conversion.format
                preview := if (s.packer n).previewOn then some (s.packer n).previewFactor else none
                width := (s.port n).width } })))) ∧
    (∀ h, let t := fireArea n h s
      t.port n = { s.port n with
        state := .armed, current := some h
        windowEnd := some (s.stamp + BitVec.ofNat 48 ((s.port n).frameWindow * 100)) } ∧
      t.chan n = (startPulse n (s.setChan n { s.chan n with
        active := (s.chan n).shadow, fired := (s.chan n).fired + 1 })).chan n ∧
      t.fsto = s.fsto ∧ t.itab = s.itab ∧ t.posu = s.posu ∧ t.trgu.eject = s.trgu.eject)

/-- R35, R41, R59, R60: shots are scheduled. The load of a queue is its entries, one more for each WINDOW_OPEN whose close is
not queued, and one for an open window whose close is not known. An entry is placed after every entry whose position is not
ahead of its own, but a WINDOW_CLOSE before a WINDOW_OPEN at its position. A shot whose position is not at least 1 ahead, or
that would take the load above 16, is missed: reported, counted skipped, with MISSED_SHOT in both views. A close whose window is
open is taken at once where its position has been reached, and else written in the window record; with the open still queued it
is queued; and otherwise it is dropped. A new item's entries and queues are set so on each channel in ITEM plan that is RUNNING.
-/
def Obligations.ShotsAreScheduledWithinTheLoad : Prop :=
  (∀ t now : Pos, passed t now = true ↔ ¬(1 ≤ (t - now).toNat ∧ (t - now).toNat < 2 ^ 31)) ∧
  (∀ c : Channel, load c = c.queue.length +
    (c.queue.countP fun e => decide (e.kind = .windowOpen) &&
      c.queue.all fun x => decide (x.item ≠ e.item) || decide (x.kind ≠ .windowClose)) +
    match c.window with
      | some w => if w.close = none then 1 else 0
      | none => 0) ∧
  (∀ (e : ShotEntry) (q : List ShotEntry), ∃ a b, q = a ++ b ∧ placeEntry e q = a ++ e :: b ∧
    let stops := fun x : ShotEntry => (1 ≤ (x.pos - e.pos).toNat ∧ (x.pos - e.pos).toNat < 2 ^ 31) ∨
      (e.kind = .windowClose ∧ x.kind = .windowOpen ∧ x.pos = e.pos)
    (∀ x ∈ a, ¬stops x) ∧ ∀ x, b.head? = some x → stops x) ∧
  (∀ (n : Unit8) (item : Nat) (pos : Pos) (kind : ShotKind) (s : State), let c := s.chan n
    let miss := fun r => setBoth .missedShot ((s.setItab { s.itab with
      items := s.itab.items.map fun it => if it.number = item then it.apply n (.missed r) else it }).setChan n
      { c with skipped := c.skipped + 1 })
    scheduleShot n item pos kind s =
      if passed pos s.posu.position = true then miss .tooLate
      else if (kind = .areaShot ∧ 16 ≤ load c) ∨ (kind ≠ .areaShot ∧ 15 ≤ load c) then miss .queueFull
      else s.setChan n { c with queue := placeEntry { item := item, pos := pos, kind := kind } c.queue }) ∧
  (∀ (n : Unit8) (item : Nat) (pos : Pos) (s : State), let c := s.chan n
    (∀ w, c.window = some w → w.item = item →
      (passed pos s.posu.position = true → scheduleClose n item pos s = takeClose n s) ∧
      (passed pos s.posu.position = false → scheduleClose n item pos s =
        s.setChan n { c with window := some { w with close := some (pos, .held) } })) ∧
    ((∀ w, c.window = some w → w.item ≠ item) →
      ((∃ e ∈ c.queue, e.item = item ∧ e.kind = .windowOpen) → scheduleClose n item pos s =
        s.setChan n { c with queue := placeEntry { item := item, pos := pos, kind := .windowClose } c.queue }) ∧
      ((∀ e ∈ c.queue, e.item = item → e.kind ≠ .windowOpen) → scheduleClose n item pos s = s))) ∧
  ∀ (it : Item) (s : State) (n : Unit8), (∀ i ∈ s.itab.items, i.number ≠ it.number) →
    (∀ e ∈ (s.chan n).queue, e.item ≠ it.number) → (∀ m w, (s.chan m).window = some w → w.item ≠ it.number) →
    let t := appendItem it s
    let c := s.chan n
    let pos := it.start + BitVec.ofNat 32 c.offset
    let entry := fun k => ({ item := it.number, pos := pos, kind := k } : ShotEntry)
    let full := match (s.port n).kind with | .area => 16 | .scan => 15
    ∃ it', findItem t it.number = some it' ∧
      if ¬(c.plan = .item ∧ c.state = .running) then it'.shots[n] = it.shots[n] ∧ t.chan n = c
      else if passed pos s.posu.position = true then
        it'.shots[n] = .missed .tooLate ∧ t.chan n = { c with skipped := c.skipped + 1 }
      else if full ≤ load c then it'.shots[n] = .missed .queueFull ∧ t.chan n = { c with skipped := c.skipped + 1 }
      else it'.shots[n] = .pending ∧ t.chan n = { c with
        queue := match (s.port n).kind, it.endPos with
          | .area, _ => placeEntry (entry .areaShot) c.queue
          | .scan, none => placeEntry (entry .windowOpen) c.queue
          | .scan, some e => placeEntry
              { item := it.number, pos := e + BitVec.ofNat 32 c.offset, kind := .windowClose }
              (placeEntry (entry .windowOpen) c.queue) }

/-- R63 to R65, R91 to R93: SCAN windows. A WINDOW_OPEN misses as an AREA shot does (log entry 22), and takes its item's close
out of the queue; or it takes the shadow, a FILLING record, the port to RECEIVING, the packer's context and the window record,
with a queued close copied, and is reported FIRED; that it writes the record over a window still open is log entry 26. A line
trigger is taken at the next line position, while the frame is FILLING and short of a known close: it counts an outstanding line
missing, sets the flag, starts a pulse and places the next. A close counts an outstanding line missing, completes a FILLING
frame, returns a RECEIVING or DRAINING port to IDLE, and ends the window. A line for which the flag is set is offered to the
store and clears it, and at 16,384 lines the frame is truncated LONG and the port DRAINING; of each of its samples the
configured depth counts (log entry 20). -/
def Obligations.ScanWindowsOpenTakeLinesAndClose : Prop :=
  (∀ (n : Unit8) (item : Nat) (pos : Pos) (s : State), let c := s.chan n
    let miss := fun r (t : State) => setBoth .missedShot (countSkip n (report item n (.missed r) (t.setChan n { c with
      queue := c.queue.filter fun e => !(decide (e.item = item) && decide (e.kind = .windowClose)) })))
    ((s.port n).state = .disabled ∨ (s.port n).state = .unlocked → takeOpen n item pos s = miss .cameraLost s) ∧
    ((s.port n).state = .armed ∨ (s.port n).state = .receiving ∨ (s.port n).state = .draining →
      takeOpen n item pos s = miss .cameraBusy s) ∧
    ((s.port n).state = .idle →
      (freeSlot s = none → oldestEligible s = none → takeOpen n item pos s = miss .storeFull
        (setBoth .storeFull (s.setFsto { s.fsto with recordShortages := s.fsto.recordShortages + 1 }))) ∧
      (∀ i t, (freeSlot s = some i ∧ t = s) ∨
          (∃ old, freeSlot s = none ∧ oldestEligible s = some old ∧ i = old.slot ∧ t = evict old s) →
        let h : Handle := { slot := i, gen := t.fsto.slots[i].gen }
        let preview := if (s.packer n).previewOn then some (s.packer n).previewFactor else none
        let u := takeOpen n item pos s
        u.chan n = { c with
          active := c.shadow, fired := c.fired + 1
          window := some {
            item := item, handle := h, nextLine := pos, outstanding := false
            close := (c.queue.find? fun e => decide (e.item = item) && decide (e.kind = .windowClose)).map
              fun e => (e.pos, .queued) } } ∧
        u.port n = { s.port n with
          state := .receiving, current := some h
          counters := { (s.port n).counters with started := (s.port n).counters.started + 1 } } ∧
        recordAt u h = some {
          port := n, item := item, state := .filling, shotPosition := pos, fireStamp := s.stamp
          format := (s.packer n).conversion.format, preview := preview, width := (s.port n).width } ∧
        (u.packer n).context = some {
          handle := h, preview := preview, rows := 0
          columns := match preview with
            | some d => List.replicate ((s.port n).width / d) (0, 0)
            | none => [] } ∧
        u.itab = (report item n (.fired h) s).itab ∧ u.posu = s.posu ∧ u.trgu.eject = s.trgu.eject))) ∧
  (∀ (n : Unit8) (p : Pos) (s : State), let c := s.chan n
    (c.window = none → takeLineTrigger n p s = s ∧ takeClose n s = s) ∧
    ∀ w, c.window = some w →
      let marked := fun (r : FrameRecord) => if w.outstanding then { r with missing := min 65535 (r.missing + 1) } else r
      let filling := (recordAt s w.handle).any fun r => decide (r.state = .filling)
      let due := w.nextLine = p ∧ filling = true ∧
        ∀ q home, w.close = some (q, home) → 1 ≤ (q - p).toNat ∧ (q - p).toNat < 2 ^ 31
      (¬due → takeLineTrigger n p s = s) ∧
      (due → let t := takeLineTrigger n p s
        t.chan n = (startPulse n (s.setChan n { c with window := some { w with
          outstanding := true, nextLine := p + BitVec.ofNat 32 c.scanPitch } })).chan n ∧
        recordAt t w.handle = (recordAt s w.handle).map marked ∧ t.ports = s.ports ∧ t.itab = s.itab ∧ t.rnu = s.rnu ∧
        t.fwd = s.fwd ∧ t.fsto.age = s.fsto.age ∧ t.fsto.pool = s.fsto.pool) ∧
      (let t := takeClose n s
        let whole := (s.port n).current = some w.handle ∧ filling = true
        let st := if (s.port n).state = .receiving ∨ (s.port n).state = .draining then .idle else (s.port n).state
        t.port n = (if whole then { s.port n with
            state := st, current := none, windowEnd := none
            counters := { (s.port n).counters with completed := (s.port n).counters.completed + 1 } }
          else { s.port n with state := st }) ∧
        t.chan n = (if c.state = .halting ∧ c.queue = [] ∧ st.atRest = true then
            { c with window := none, state := .idle, plan := .off, freeRun := none }
          else { c with window := none }) ∧
        (¬whole → recordAt t w.handle = (recordAt s w.handle).map marked ∧ t.fsto.age = s.fsto.age) ∧
        (whole → t.fsto.age = s.fsto.age ++ [w.handle] ∧ ∀ r, recordAt s w.handle = some r →
          ∃ r', recordAt t w.handle = some r' ∧ r'.state = .complete ∧ r'.endStamp = some s.stamp ∧
            r'.missing = (marked r).missing ∧ r'.lines = r.lines ∧ r'.fullBlocks = r.fullBlocks))) ∧
  (∀ (n : Unit8) (l : List (BitVec 14)) (s : State), inReset s = false → s.pins.lock[n] = true →
    (s.port n).kind = .scan → (s.port n).state = .receiving → (s.chan n).window.any (·.outstanding) = true →
    let o := (offerLine n (l.map fun x => x.toNat % 2 ^ (s.port n).depth) s).2
    let v := o.setChan n { o.chan n with window := (o.chan n).window.map fun w => { w with outstanding := false } }
    exec (.lnWord n l) s = .next
      (if linesReceived n v < 16384 then v
        else let x := truncateFrame n .long v
          x.setPort n { x.port n with state := .draining }))

/-- R58, R62, R65, R71: what a count event that reaches position p does on a channel. A close held outside the queue is taken
first; then the entries at p at the head of the queue, in queue order, each out of the queue; then a line trigger; then a loose
target. A loose target is taken while the channel is RUNNING: the reached position is the last target and the next one a pitch
on, a COUNT falls by one, and the shot misses without a pulse, counted skipped and without MISSED_SHOT, on a SCAN port, a port
that is not IDLE or a store that gives no record; or it fires with item number 0. At COUNT 0 the channel is HALTING, and that it
keeps its target, with nothing remaining, until it is IDLE is log entry 17. A HALTING channel with nothing left is IDLE with
plan OFF. -/
def Obligations.ChannelsTakeWhatACountReaches : Prop :=
  (∀ (n : Unit8) (p : Pos) (k : Nat) (s : State), let c := s.chan n
    ((∀ e, c.queue.head? = some e → e.pos ≠ p) → takeHeads n p k s = s) ∧
    (∀ e l, c.queue = e :: l → e.pos = p → let s1 := s.setChan n { c with queue := l }
      takeHeads n p (k + 1) s = takeHeads n p k (match e.kind with
        | .areaShot => takeAreaShot n e.item p s1
        | .windowOpen => takeOpen n e.item p s1
        | .windowClose => takeClose n s1)) ∧
    (∀ e, ((takeHeads n p c.queue.length s).chan n).queue.head? = some e → e.pos ≠ p) ∧
    let s1 := if (c.window.bind (·.close)).any (fun k => decide (k.1 = p ∧ k.2 ≠ .queued)) = true then takeClose n s else s
    reachChannel n p s =
      settleChannel n (takeLooseTarget n p (takeLineTrigger n p (takeHeads n p (s1.chan n).queue.length s1)))) ∧
  (∀ (n : Unit8) (s : State), let c := s.chan n
    settleChannel n s =
      if c.state = .halting ∧ c.queue = [] ∧ c.window = none ∧ (s.port n).state.atRest = true then
        s.setChan n { c with state := .idle, plan := .off, freeRun := none }
      else s) ∧
  ∀ (n : Unit8) (p : Pos) (s : State), let c := s.chan n
    ((∀ t, c.freeRun = some t → c.state = .running → t.next ≠ p) → takeLooseTarget n p s = s) ∧
    ∀ t, c.freeRun = some t → c.state = .running → t.next = p →
      let left := t.remaining.map (· - 1)
      let c1 := { c with freeRun := some { t with last := some p, next := p + BitVec.ofNat 32 t.pitch, remaining := left } }
      let s1 := s.setChan n c1
      let done := fun (u : State) =>
        if left = some 0 then settleChannel n (u.setChan n { u.chan n with state := .halting }) else u
      let skip := fun (u : State) => done (u.setChan n { c1 with skipped := c.skipped + 1 })
      ((s.port n).kind = .scan ∨ (s.port n).state ≠ .idle → takeLooseTarget n p s = skip s1) ∧
      ((s.port n).kind = .area → (s.port n).state = .idle →
        (freeSlot s = none → oldestEligible s = none → takeLooseTarget n p s = skip
          (setBoth .storeFull (s1.setFsto { s.fsto with recordShortages := s.fsto.recordShortages + 1 }))) ∧
        (∀ i u, (freeSlot s = some i ∧ u = s1) ∨
            (∃ old, freeSlot s = none ∧ oldestEligible s = some old ∧ i = old.slot ∧ u = evict old s1) →
          takeLooseTarget n p s = done (fireArea n { slot := i, gen := u.fsto.slots[i].gen }
            (u.setSlot i { gen := u.fsto.slots[i].gen, record := some {
              port := n, item := 0, state := .expected, shotPosition := p, fireStamp := s.stamp
              format := (s.packer n).conversion.format
              preview := if (s.packer n).previewOn then some (s.packer n).previewFactor else none
              width := (s.port n).width } }))))


/-! ## Camera ports and packers (04_camera_ports.md, 05_sample_packing_and_previews.md) -/

/-- R78, R100, R108: SET_PORT and SET_CONVERSION write all their settings while the port is DISABLED or IDLE and its channel has
no queued work and no open window, and otherwise none (BUSY); SET_PREVIEW, from OFFICE, writes both its values in every port
state. A value outside its range is answered BAD_ARG with no change. -/
def Obligations.PortSettingsAreWrittenWholeOrNot : Prop :=
  ∀ (args : List Byte) (s : State),
    (CanServe .line s → let r := ready .line s
      (11 ≤ args.length →
        let inRange := 16 ≤ argNat args 2 2 ∧ argNat args 2 2 ≤ 8192 ∧ argNat args 2 2 % 16 = 0 ∧ 1 ≤ argNat args 4 2 ∧
          argNat args 4 2 ≤ 4096 ∧ argNat args 6 1 ∈ [8, 10, 12, 14] ∧ 1 ≤ argNat args 7 4 ∧ argNat args 7 4 ≤ 1000000
        (8 ≤ argNat args 0 1 ∨ 2 ≤ argNat args 1 1 ∨ ¬inRange → Serves (.setPort .line args) .line 0x41 args s r [0x03]) ∧
        (∀ (n : Unit8) (k : PortKind), argNat args 0 1 = n.val → argNat args 1 1 = k.code.toNat → inRange →
          if ((s.port n).state = .disabled ∨ (s.port n).state = .idle) ∧ (s.chan n).queue = [] ∧ (s.chan n).window = none then
            Serves (.setPort .line args) .line 0x41 args s (r.setPort n { s.port n with
              kind := k, width := argNat args 2 2, lines := argNat args 4 2, depth := argNat args 6 1
              frameWindow := argNat args 7 4 }) [0x01]
          else Serves (.setPort .line args) .line 0x41 args s r [0x02])) ∧
      (13 ≤ args.length →
        let inRange := -4096 ≤ argInt2 args 2 ∧ argInt2 args 2 ≤ 4095 ∧ argNat args 8 4 ≤ 16777216
        (8 ≤ argNat args 0 1 ∨ 4 ≤ argNat args 1 1 ∨ 4 ≤ argNat args 6 1 ∨ 2 ≤ argNat args 7 1 ∨ 2 ≤ argNat args 12 1 ∨
          ¬inRange → Serves (.setConversion .line args) .line 0x49 args s r [0x03]) ∧
        (∀ (n : Unit8) (f : Format) (m : Rounding) (g : RangeMode) (b : Bool), argNat args 0 1 = n.val →
          argNat args 1 1 = f.code.toNat → argNat args 6 1 = m.code.toNat → argNat args 7 1 = g.code.toNat →
          argNat args 12 1 = b.toNat → inRange →
          if ((s.port n).state = .disabled ∨ (s.port n).state = .idle) ∧ (s.chan n).queue = [] ∧ (s.chan n).window = none then
            Serves (.setConversion .line args) .line 0x49 args s (r.setPacker n { s.packer n with conversion := {
              format := f, blackOffset := argInt2 args 2, gain := argNat args 4 2, rounding := m, rangeMode := g
              faultLimit := argNat args 8 4, faultReport := b } }) [0x01]
          else Serves (.setConversion .line args) .line 0x49 args s r [0x02]))) ∧
    (∀ tag, CanServe (.office tag) s → 3 ≤ args.length → let r := ready (.office tag) s
      (8 ≤ argNat args 0 1 ∨ 2 ≤ argNat args 1 1 ∨ argNat args 2 1 ∉ [2, 4, 8, 16] →
        Serves (.setPreview (.office tag) args) (.office tag) 0x4A args s r [0x03]) ∧
      (∀ (n : Unit8) (b : Bool), argNat args 0 1 = n.val → argNat args 1 1 = b.toNat → argNat args 2 1 ∈ [2, 4, 8, 16] →
        Serves (.setPreview (.office tag) args) (.office tag) 0x4A args s
          (r.setPacker n { s.packer n with previewOn := b, previewFactor := argNat args 2 1 }) [0x01]))

/-- R69, R71, R75, R79, R80, R94, R96: ENABLE_PORT takes a DISABLED port to IDLE or UNLOCKED by its lock flag, and DISABLE_PORT
an IDLE port to DISABLED; the port reports rest to its channel, which may become IDLE by it (R71), and no notice is set. Both
are LINE's to issue. A port in any other state is BUSY and unchanged. RESET_PORT hard-halts the channel (R69), its items' and
its frame's part included, clears its counts and its until-mark and the ten counters of the port, and leaves the port DISABLED,
UNLOCKED or IDLE (R96, R75); settings, pulses, outputs, and the other ports and channels stay. A port outside 0 to 7 is answered
BAD_ARG. -/
def Obligations.PortsAreEnabledDisabledAndReset : Prop :=
  ∀ (args : List Byte) (s : State), 1 ≤ args.length → CanServe .line s → let r := ready .line s
    (∀ tag, CanServe (.office tag) s →
      Serves (.enablePort (.office tag) args) (.office tag) 0x42 args s (ready (.office tag) s) [0x05] ∧
      Serves (.disablePort (.office tag) args) (.office tag) 0x43 args s (ready (.office tag) s) [0x05]) ∧
    (8 ≤ argNat args 0 1 → Serves (.enablePort .line args) .line 0x42 args s r [0x03] ∧
      Serves (.disablePort .line args) .line 0x43 args s r [0x03] ∧ Serves (.resetPort .line args) .line 0x44 args s r [0x03]) ∧
    (∀ n : Unit8, argNat args 0 1 = n.val →
      let c := s.chan n
      let rested := fun (p : PortState) =>
        if c.state = .halting ∧ c.queue = [] ∧ c.window = none then
          (r.setPort n { s.port n with state := p }).setChan n { c with state := .idle, plan := .off, freeRun := none }
        else r.setPort n { s.port n with state := p }
      ((s.port n).state = .disabled → Serves (.enablePort .line args) .line 0x42 args s
        (rested (if s.pins.lock[n] = true then .idle else .unlocked)) [0x01]) ∧
      ((s.port n).state ≠ .disabled → Serves (.enablePort .line args) .line 0x42 args s r [0x02]) ∧
      ((s.port n).state = .idle → Serves (.disablePort .line args) .line 0x43 args s (rested .disabled) [0x01]) ∧
      ((s.port n).state ≠ .idle → Serves (.disablePort .line args) .line 0x43 args s r [0x02]) ∧
      let h := hardHalt n r
      let t := (h.setChan n { h.chan n with fired := 0, skipped := 0, untilMark := none }).setPort n { h.port n with
        counters := {}, lastCounter := none
        state := if (s.port n).state = .disabled then .disabled else if s.pins.lock[n] = true then .idle else .unlocked }
      Serves (.resetPort .line args) .line 0x44 args s t [0x01] ∧
        (t.port n).state = (if (s.port n).state = .disabled then .disabled
          else if s.pins.lock[n] = true then .idle else .unlocked) ∧
        (t.port n).counters = {} ∧ (t.port n).lastCounter = none ∧ (t.port n).kind = (s.port n).kind ∧
        (t.port n).width = (s.port n).width ∧ (t.port n).lines = (s.port n).lines ∧ (t.port n).depth = (s.port n).depth ∧
        (t.port n).frameWindow = (s.port n).frameWindow ∧
        (t.chan n).state = .idle ∧ (t.chan n).fired = 0 ∧ (t.chan n).skipped = 0 ∧ (t.chan n).untilMark = none ∧
        (c.state ≠ .idle → (t.chan n).plan = .off ∧ (t.chan n).queue = [] ∧ (t.chan n).freeRun = none ∧
          (t.chan n).window = none) ∧
        (t.chan n).offset = c.offset ∧ (t.chan n).scanPitch = c.scanPitch ∧ (t.chan n).active = c.active ∧
        (t.chan n).shadow = c.shadow ∧ (t.chan n).trigger = c.trigger ∧ (t.chan n).strobe = c.strobe ∧
        (∀ m, m ≠ n → t.port m = s.port m ∧ t.chan m = s.chan m) ∧
        t.posu = s.posu ∧ t.capu = s.capu ∧ t.trgu.eject = s.trgu.eject ∧ t.lnk = s.lnk)

/-- R77, R84, R89, R90, R94, R122: the lock events and the frame window. A lock event moves the receiver lock flag at all times;
gained, it takes an UNLOCKED port to IDLE with no last camera counter; lost, it takes a port that is neither DISABLED nor
UNLOCKED to UNLOCKED without a current frame, which becomes TRUNCATED(CAMERA_LOST) with the lines it has, counts it, and sets
CAMERA_LOST in both views, after the truncation's report (log entry 22). The expiry of an ARMED port's window reports the shot
of a live item, frees its record, counts it, and leaves the port IDLE, with MISSED_SHOT in both views for a frame of an item: of
any item, live or not, by log entry 16. The clock is carried to the window's end (log entry 1), and an expiry with no window
running is nothing (log entry 9). -/
def Obligations.LockEventsAndFrameWindows : Prop :=
  ∀ (n : Unit8) (s : State), let p := s.port n
    let flag := fun (b : Bool) => { s with pins := { s.pins with lock := s.pins.lock.set n b } }
    (inReset s = true → exec (.lockGained n) s = .next (flag true) ∧ exec (.lockLost n) s = .next (flag false) ∧
      exec (.frameWindowExpiry n) s = .next s) ∧
    (inReset s = false →
      (p.state ≠ .unlocked → exec (.lockGained n) s = .next (flag true)) ∧
      (p.state = .unlocked → exec (.lockGained n) s = .next (settleChannel n
        ((flag true).setPort n { p with state := .idle, lastCounter := none }))) ∧
      (p.state = .disabled ∨ p.state = .unlocked → exec (.lockLost n) s = .next (flag false)) ∧
      (p.state ≠ .disabled → p.state ≠ .unlocked → ∃ t, exec (.lockLost n) s = .next t ∧
        t.port n = { p with
          state := .unlocked, current := none, windowEnd := if p.current.isSome then none else p.windowEnd
          counters := { p.counters with
            lockLosses := p.counters.lockLosses + 1
            truncated := if p.current.isSome then p.counters.truncated + 1 else p.counters.truncated } } ∧
        t.pins = (flag false).pins ∧ t.rnu.lineView &&& 0x00000100 = 0x00000100 ∧
        t.rnu.officeView &&& 0x00000100 = 0x00000100 ∧
        (∀ h r, p.current = some h → recordAt s h = some r → ∃ r', recordAt t h = some r' ∧
          r'.state = .truncated .cameraLost ∧ r'.endStamp = some s.stamp ∧ r'.lines = r.lines ∧ r'.fullBlocks = r.fullBlocks ∧
          t.fsto.age = s.fsto.age ++ [h]) ∧
        (∀ w, (t.chan n).window = some w → p.current.isSome = true → w.outstanding = false) ∧
        t.posu = s.posu ∧ t.capu = s.capu ∧ t.stamp = s.stamp) ∧
      (p.windowEnd = none ∨ p.current = none → exec (.frameWindowExpiry n) s = .next s) ∧
      (∀ e h, p.windowEnd = some e → p.current = some h → ∃ t, exec (.frameWindowExpiry n) s = .next t ∧
        t.port n = { p with
          state := .idle, current := none, windowEnd := none
          counters := { p.counters with windowExpiries := p.counters.windowExpiries + 1 } } ∧
        recordAt t h = none ∧ t.stamp = (reachTime e s).stamp ∧ t.capu = s.capu ∧
        (∀ f, recordAt s h = some f → t.fsto.slots[h.slot].record = none ∧ t.fsto.slots[h.slot].gen = h.gen + 1 ∧
          t.fsto.pool = s.fsto.pool ++ f.fullBlocks ++ f.previewBlocks ∧
          t.itab = (if f.item ≠ 0 ∧ f.copy = .none then report f.item n .expired s else s).itab ∧
          (f.item ≠ 0 → t.rnu.lineView &&& 0x00000080 = 0x00000080 ∧ t.rnu.officeView &&& 0x00000080 = 0x00000080))))

/-- R82, R83, R85, R87, R88, R92, R93: the words of a camera by the state and the kind of their port, and the counts and states
they leave where no line is stored. Without lock, in device reset, or at a port that is DISABLED or UNLOCKED a word changes
nothing (R77). A line at an AREA frame that has its lines is discarded and counted, and the record takes flag LONG. Of each
sample the configured depth counts (log entry 20). -/
def Obligations.CameraWordsByPortState : Prop :=
  ∀ (n : Unit8) (k : BitVec 16) (l : List (BitVec 14)) (s : State), let p := s.port n
    let seen := { p with
      lastCounter := some k
      counters := { p.counters with
        gaps := if ∃ c, p.lastCounter = some c ∧ c + 1 ≠ k then p.counters.gaps + 1 else p.counters.gaps } }
    let values := l.map fun x => x.toNat % 2 ^ p.depth
    (inReset s = true ∨ s.pins.lock[n] = false ∨ p.state = .disabled ∨ p.state = .unlocked →
      exec (.fsWord n k) s = .next s ∧ exec (.lnWord n l) s = .next s ∧ exec (.feWord n) s = .next s) ∧
    (inReset s = false → s.pins.lock[n] = true →
      (p.kind = .scan → exec (.fsWord n k) s = .next s ∧ exec (.feWord n) s = .next s ∧
        (p.state = .idle → exec (.lnWord n l) s = .next (s.setPort n { p with
          counters := { p.counters with unrequested := p.counters.unrequested + 1 } })) ∧
        (p.state = .receiving → exec (.lnWord n l) s = .next (takeScanLine n values s)) ∧
        (p.state = .receiving → (s.chan n).window.any (·.outstanding) = false → exec (.lnWord n l) s =
          .next (s.setPort n { p with counters := { p.counters with unrequested := p.counters.unrequested + 1 } }))) ∧
      (p.kind = .area →
        (p.state = .idle ∨ p.state = .draining → exec (.fsWord n k) s = .next (s.setPort n { seen with
          state := .draining, counters := { seen.counters with unsolicited := seen.counters.unsolicited + 1 } })) ∧
        (p.state = .armed → ∀ h, p.current = some h → ∃ t, exec (.fsWord n k) s = .next t ∧
          t.port n = { seen with
            state := .receiving, windowEnd := none
            counters := { seen.counters with started := seen.counters.started + 1 } } ∧
          recordAt t h = (recordAt s h).map (fun f =>
            { f with state := .filling, cameraCounter := some k, lines := 0 }) ∧
          t.posu = s.posu ∧ t.itab = s.itab ∧ t.trgu = s.trgu ∧ t.rnu = s.rnu ∧ t.lnk = s.lnk ∧ t.fwd = s.fwd) ∧
        (p.state = .receiving → exec (.fsWord n k) s = .next (unsolicited n (endAreaFrame n true (gapCheck n k s))) ∧
          exec (.feWord n) s = .next (settleChannel n (modPort n (fun q => { q with state := .idle })
            (endAreaFrame n false s)))) ∧
        (p.state = .idle ∨ p.state = .armed →
          exec (.lnWord n l) s = .next (s.setPort n { p with counters := { p.counters with stray := p.counters.stray + 1 } }) ∧
          exec (.feWord n) s = .next (s.setPort n { p with
            counters := { p.counters with stray := p.counters.stray + 1 } })) ∧
        (p.state = .draining → exec (.feWord n) s = .next (settleChannel n (s.setPort n { p with state := .idle }))) ∧
        (p.state = .receiving → linesReceived n s < p.lines →
          exec (.lnWord n l) s = .next (offerLine n values s).2) ∧
        (p.state = .receiving → p.lines ≤ linesReceived n s → ∀ h r, p.current = some h → recordAt s h = some r →
          exec (.lnWord n l) s = .next ((s.setSlot h.slot {
            gen := h.gen, record := some { r with flags := { r.flags with long := true } } }).setPort n { p with
              counters := { p.counters with discarded := p.counters.discarded + 1 } }))) ∧
      (p.state = .draining → exec (.lnWord n l) s = .next (s.setPort n { p with
        counters := { p.counters with discarded := p.counters.discarded + 1 } })))

/-- R101 to R104: a sample x becomes (x − b) × (k / 4,096) × 2^(o − d), taken exactly, rounded to a whole number by the rounding
mode, and brought into range: under SATURATE clipped and counted low or high; under MARK out of range as the invalid code and
counted, and the top value one below it. A line keeps its order, and its counts are those of its samples. The same mode rounds
the preview averages (R110). -/
def Obligations.SamplesAreConvertedExactly : Prop :=
  (∀ (m : Rounding) (num : Int) (den : Nat), 0 < den → let r := roundQuotient m num den
    (num % (den : Int) = 0 → r * den = num) ∧
    (num % (den : Int) ≠ 0 →
      (m = .down → r * den < num ∧ num < (r + 1) * den) ∧
      (m = .up → (r - 1) * den < num ∧ num < r * den) ∧
      (m = .towardZero → if 0 < num then r * den < num ∧ num < (r + 1) * den else (r - 1) * den < num ∧ num < r * den) ∧
      (m = .nearestEven → 2 * (r * den - num) ≤ den ∧ 2 * (num - r * den) ≤ den ∧
        (2 * (r * den - num) = den ∨ 2 * (num - r * den) = den → r % 2 = 0)))) ∧
  (∀ (f : Format) (r : Int),
    rangeValue .saturate f r =
      (if r < 0 then { value := 0, low := true } else if f.maxOut < r then { value := f.maxOut, high := true }
        else { value := r.toNat }) ∧
    rangeValue .mark f r =
      (if r < 0 ∨ f.maxOut < r then { value := f.maxOut, mark := true }
        else if r = f.maxOut then { value := f.maxOut - 1 } else { value := r.toNat })) ∧
  (∀ (c : Conversion) (f : Format) (d : Nat) (xs : List Nat), let line := convertLine c f d xs
    let r := fun x : Nat => roundQuotient c.rounding (((x : Int) - c.blackOffset) * c.gain * 2 ^ f.bits) (4096 * 2 ^ d)
    line.values = xs.map (fun x => (rangeValue c.rangeMode f (r x)).value) ∧
    line.low = (if c.rangeMode = .saturate then xs.countP (fun x => decide (r x < 0)) else 0) ∧
    line.high = (if c.rangeMode = .saturate then xs.countP (fun x => decide (f.maxOut < r x)) else 0) ∧
    line.mark = (if c.rangeMode = .mark then xs.countP (fun x => decide (r x < 0 ∨ f.maxOut < r x)) else 0)) ∧
  (∀ (m : Rounding) (f : Format) (sum n : Nat),
    previewValue m f (sum, 0) = 255 ∧
    (0 < n → previewValue m f (sum, n) =
      BitVec.ofNat 8 (min 254 (roundQuotient m (sum * 256) (n * 2 ^ f.bits)).toNat)))

/-- R105, R86: a stored line. It is made exactly as long as the frame is wide; its bytes go to the run of the full block list,
from the bytes already there on, and read back from there; its counts join the record's; and no byte of the store changes
outside that place and the place of the next preview line. The read-back supposes the store's bytes in their canonical form (log
entry 6), no block twice in the record's lists, and room for the line and for its preview line. -/
def Obligations.LinesAreStoredInTheirBlocks : Prop :=
  (∀ (w : Nat) (xs : List Nat), (assemble w xs).length = w ∧
    ∀ k, k < w → (assemble w xs)[k]? = some (xs.getD k 0)) ∧
  (∀ (f : Format) (vs : List Nat), vs.length % 4 = 0 → (packLine f vs).length = f.lineBytes vs.length) ∧
  (∀ (n : Unit8) (h : Handle) (line : ConvertedLine) (s : State) (r : FrameRecord), recordAt s h = some r →
    let t := storeLine n h line s
    let bytes := packLine r.format line.values
    (∃ u, recordAt t h = some u ∧ u.lines = r.lines + 1 ∧ u.clippedLow = r.clippedLow + line.low ∧
      u.clippedHigh = r.clippedHigh + line.high ∧ u.marked = r.marked + line.mark ∧ u.fullBlocks = r.fullBlocks ∧
      u.previewBlocks = r.previewBlocks ∧ u.state = r.state ∧ u.item = r.item ∧ u.holders = r.holders) ∧
    (∀ a, (∀ k, k < bytes.length → a ≠ runAddress r.fullBlocks (r.fullBytes + k)) →
      (s.packer n).context = none → memRead t.fsto.mem a = memRead s.fsto.mem a) ∧
    (memWf s.fsto.mem = true → (r.fullBlocks ++ r.previewBlocks).Nodup →
      r.fullBytes + bytes.length ≤ r.fullBlocks.length * 262144 →
      (∀ c, (s.packer n).context = some c →
        c.handle = h ∧ r.previewBytes + c.columns.length ≤ r.previewBlocks.length * 262144) →
      ∀ k, k < bytes.length →
        memRead t.fsto.mem (runAddress r.fullBlocks (r.fullBytes + k)) = bytes.getD k 0) ∧
    (∀ c a, (s.packer n).context = some c → c.handle = h →
      (∀ k, k < bytes.length → a ≠ runAddress r.fullBlocks (r.fullBytes + k)) →
      (∀ k, k < c.columns.length → a ≠ runAddress r.previewBlocks (r.previewBytes + k)) →
      memRead t.fsto.mem a = memRead s.fsto.mem a) ∧
    t.fsto.pool = s.fsto.pool ∧ t.fsto.age = s.fsto.age ∧ t.posu = s.posu ∧ t.trgu = s.trgu ∧ t.ports = s.ports)

/-- R86, R91, R105, R115 to R120, R126, R127: room for a line. A request takes its blocks from the head of the pool, the full
one first, with STORE_PRESSURE in both views at a low-water crossing; or evicts the oldest eligible record and is taken again;
or, with none eligible, is refused and counted. An eviction returns the record's blocks to the tail of the pool, full list
first, frees its slot with the generation advanced, and takes its handle off every list. A line asks for a full block where its
bytes find no room, and for a preview block at a row's first line where the preview line finds none. It is stored where the
request is granted. Refused, it truncates the frame STORE_FULL and leaves the port DRAINING. -/
def Obligations.RoomIsGivenOrTheFrameIsTruncated : Prop :=
  (∀ (s : State) (h : Handle), eligibleAt s h = true ↔ ∃ r, recordAt s h = some r ∧
    (r.state ≠ .expected ∧ r.state ≠ .filling) ∧ r.holders = {} ∧ (r.previewState = .sent ∨ r.previewState = .skipped) ∧
    (r.fullState = .none ∨ r.fullState = .sent) ∧ ¬(r.item ≠ 0 ∧ r.copy = .none)) ∧
  (∀ (s : State) (h : Handle), oldestEligible s = some h ↔ eligibleAt s h = true ∧
    ∃ a b, s.fsto.age = a ++ h :: b ∧ ∀ k ∈ a, eligibleAt s k = false) ∧
  (∀ (h : Handle) (s : State) (r : FrameRecord), recordAt s h = some r → evict h s = { s with
    fsto := { s.fsto with
      pool := s.fsto.pool ++ r.fullBlocks ++ r.previewBlocks
      slots := s.fsto.slots.set h.slot { gen := h.gen + 1, record := none }
      age := s.fsto.age.filter fun a => a != h
      evictions := s.fsto.evictions + 1 }
    fwd := { s.fwd with
      pull := s.fwd.pull.filter fun e => e.handle != h
      preview := s.fwd.preview.filter fun e => e.handle != h } }) ∧
  (∀ (h : Handle) (full preview : Bool) (s : State),
    let asked := full.toNat + preview.toNat
    let free := s.fsto.pool.length
    (asked ≤ free → let s1 := s.setFsto { s.fsto with pool := s.fsto.pool.drop asked }
      let s2 := if s.fsto.lowWater ≤ free ∧ free - asked < s.fsto.lowWater then setBoth .storePressure s1 else s1
      roomRequest h full preview s = (true, modRecord h (fun r => { r with
        fullBlocks := r.fullBlocks ++ s.fsto.pool.take full.toNat
        previewBlocks := r.previewBlocks ++ (s.fsto.pool.drop full.toNat).take preview.toNat }) s2)) ∧
    (free < asked → ∀ old, oldestEligible s = some old →
      roomRequest h full preview s = roomRequest h full preview (evict old s)) ∧
    (free < asked → oldestEligible s = none → roomRequest h full preview s =
      (false, s.setFsto { s.fsto with blockShortages := s.fsto.blockShortages + 1 }))) ∧
  ∀ (n : Unit8) (samples : List Nat) (s : State) (h : Handle) (r : FrameRecord),
    (s.port n).current = some h → recordAt s h = some r →
    let s1 := if samples.length = r.width then s else
      modRecord h (fun r => { r with bad := r.bad + 1, flags := { r.flags with lineLength := true } }) s
    let full := decide (r.fullBlocks.length * 262144 - r.fullBytes < r.format.lineBytes r.width)
    let preview := (s.packer n).context.any fun c => c.preview.isSome && decide (c.rows = 0) &&
      decide (r.previewBlocks.length * 262144 - r.previewBytes < r.previewLineBytes)
    let line := convertLine (s.packer n).conversion r.format (s.port n).depth (assemble r.width samples)
    let u := (roomRequest h full preview s1).2
    ((roomRequest h full preview s1).1 = true → offerLine n samples s = (true, storeLine n h line u)) ∧
    ((roomRequest h full preview s1).1 = false → offerLine n samples s = (false,
      (truncateFrame n .storeFull u).setPort n { (truncateFrame n .storeFull u).port n with state := .draining }))

/-- R98, R107, R109, R111: faults and preview rows. With the fault limit not 0, the line that takes the counts past it gives the
record its flag once, reports it for a live item, and sets CONVERSION_FAULT in both views where reports are on. A frame context
begins empty. Each line's valid values join the sums and counts of their columns, and a row that is full is written as one
preview line into the preview run, after those written before, and emptied. A context that ends with a row begun writes that
row. -/
def Obligations.FaultsAndPreviewRows : Prop :=
  (∀ (n : Unit8) (h : Handle) (s : State) (r : FrameRecord), recordAt s h = some r →
    let c := (s.packer n).conversion
    let due := c.faultLimit ≠ 0 ∧ c.faultLimit < r.clippedLow + r.clippedHigh + r.marked ∧ r.flags.conversionFault = false
    let s1 := s.setSlot h.slot { gen := h.gen, record := some { r with flags := { r.flags with conversionFault := true } } }
    let s2 := if r.item ≠ 0 ∧ r.copy = .none then report r.item n .fault s1 else s1
    (¬due → faultTest n h s = s) ∧
    (due → faultTest n h s = if c.faultReport = true then setBoth .conversionFault s2 else s2)) ∧
  (∀ (n : Unit8) (h : Handle) (s : State) (r : FrameRecord), recordAt s h = some r →
    beginContext n h s = s.setPacker n { s.packer n with context := some {
      handle := h, preview := r.preview, rows := 0
      columns := match r.preview with
        | some d => List.replicate (r.width / d) (0, 0)
        | none => [] } }) ∧
  (∀ (m : RangeMode) (f : Format) (d : Nat) (columns : List (Nat × Nat)) (values : List Nat) (k : Nat),
    (foldColumns m f d columns values)[k]? = columns[k]?.map fun col =>
      let mine := ((values.drop (k * d)).take d).filter fun v => decide (m = .saturate ∨ v ≠ 2 ^ f.bits - 1)
      (col.1 + mine.sum, col.2 + mine.length)) ∧
  ∀ (n : Unit8) (f : Format) (values : List Nat) (s : State), let p := s.packer n
    (p.context = none → accumulate n f values s = s ∧ endContext n s = s) ∧
    ∀ c, p.context = some c → ∀ r, recordAt s c.handle = some r →
      let place := r.previewLines * match r.preview with | some d => r.width / d | none => 0
      let wrote := fun (columns : List (Nat × Nat)) =>
        let line := columns.map (previewValue p.conversion.rounding r.format)
        (s.setFsto { s.fsto with mem := writeRun r.previewBlocks place line s.fsto.mem }).setSlot c.handle.slot {
          gen := c.handle.gen, record := some { r with previewLines := r.previewLines + 1 } }
      (c.preview = none → accumulate n f values s = s) ∧
      (∀ d, c.preview = some d → let columns := foldColumns p.conversion.rangeMode f d c.columns values
        (c.rows + 1 < d → accumulate n f values s =
          s.setPacker n { p with context := some { c with columns := columns, rows := c.rows + 1 } }) ∧
        (d ≤ c.rows + 1 → accumulate n f values s = (wrote columns).setPacker n { p with
          context := some { c with columns := List.replicate columns.length (0, 0), rows := 0 } })) ∧
      (c.rows = 0 → endContext n s = s.setPacker n { p with context := none }) ∧
      (0 < c.rows → endContext n s = (wrote c.columns).setPacker n { p with context := none })

/-- R88, R98, R121, R123, R143, R179, R182: the end of a port's frame. The packer gives up its context, the record takes its end
state, its flags and the stamp, and the port gives it up with its timer. Then, in order: the handle joins the age list; the end
is reported for a live item; the preview is queued, or skipped where it is off or has no blocks; a waiting pull joins the pull
queue; and under the port's auto-full policy a record with no full part asked for is queued too, or counted skipped where the
pull load is 64. A truncation for STORE_FULL sets its notice in both views. Lines, lists, item, holders and copy stay. An AREA
frame that ends at an FE or an FS is SHORT where lines are wanting, and NO_FE at an FS. -/
def Obligations.FramesEndWithTheirEndWork : Prop :=
  (∀ (n : Unit8) (final : RecordState) (mark : FrameFlags → FrameFlags) (s : State) (h : Handle) (r : FrameRecord),
    final = .complete ∨ (∃ x, final = .truncated x) → (s.port n).current = some h → recordAt s h = some r →
    let t := endFrame n final mark s
    let queued := r.preview ≠ none ∧ r.previewBlocks ≠ []
    let due := r.fullState = .none ∧
      (s.fwd.autoFull[r.port] = .all ∨ (s.fwd.autoFull[r.port] = .onReject ∧ r.copy = .reject))
    let joins := r.fullState = .await ∨ (due ∧ pullLoad s < 64)
    t.port n = { s.port n with current := none, windowEnd := none } ∧ (t.packer n) = { s.packer n with context := none } ∧
    t.fsto.age = s.fsto.age ++ [h] ∧ t.fsto.pool = s.fsto.pool ∧
    (∃ r', recordAt t h = some r' ∧ r'.state = final ∧ r'.endStamp = some s.stamp ∧ r'.flags = mark r.flags ∧
      r'.previewState = (if queued then .queued else .skipped) ∧
      r'.fullState = (if joins then .queued else r.fullState) ∧
      r'.previewLines = r.previewLines +
        (if (s.packer n).context.any (fun c => decide (c.handle = h) && decide (0 < c.rows)) = true then 1 else 0) ∧
      r'.lines = r.lines ∧ r'.missing = r.missing ∧ r'.fullBlocks = r.fullBlocks ∧ r'.previewBlocks = r.previewBlocks ∧
      r'.item = r.item ∧ r'.port = r.port ∧ r'.holders = r.holders ∧ r'.copy = r.copy ∧ r'.copySource = r.copySource) ∧
    t.itab = (if r.item ≠ 0 ∧ r.copy = .none then
      report r.item r.port (if final = .complete then .completed else .truncated) s else s).itab ∧
    t.fwd.preview = s.fwd.preview ++ (if queued then [{ handle := h }] else []) ∧
    t.fwd.pull = s.fwd.pull ++ (if joins then [{ handle := h }] else []) ∧
    t.fwd.counters.autoFullSkipped = s.fwd.counters.autoFullSkipped + (if due ∧ 64 ≤ pullLoad s then 1 else 0) ∧
    (due → 64 ≤ pullLoad s → t.rnu.officeView &&& 0x00040000 = 0x00040000) ∧
    (final = .truncated .storeFull →
      t.rnu.lineView &&& 0x00000800 = 0x00000800 ∧ t.rnu.officeView &&& 0x00000800 = 0x00000800) ∧
    (∀ m, m ≠ n → t.port m = s.port m) ∧ t.trgu = s.trgu ∧ t.posu = s.posu ∧ t.stamp = s.stamp) ∧
  (∀ s : State, pullLoad s = s.fwd.pull.length +
    (s.fsto.slots.toList.countP fun sl => sl.record.any fun r => decide (r.fullState = .await))) ∧
  ∀ (n : Unit8) (s : State),
    (∀ x, let t := endFrame n (.truncated x) (fun f => { f with long := f.long || decide (x = .long) }) s
      truncateFrame n x s = t.setPort n { t.port n with
        counters := { (t.port n).counters with truncated := (t.port n).counters.truncated + 1 } }) ∧
    (∀ mark, let t := endFrame n .complete mark s
      completeFrame n mark s = t.setPort n { t.port n with
        counters := { (t.port n).counters with completed := (t.port n).counters.completed + 1 } }) ∧
    ∀ noFe, endAreaFrame n noFe s = completeFrame n (fun f => { f with
      short := f.short || decide (linesReceived n s < (s.port n).lines), noFe := f.noFe || noFe }) s

/-! ## The frame store (06_frame_store_and_catalogue.md) -/

/-- R119, R128 to R131, R116: HOLD and RELEASE put the issuer among a frame's holders and take it out; DISCARD frees a frame
that has ended, sends no part, belongs to no live item, and is not held by the other master; CLEAR_STORE frees every such frame
whatever its holders, and tells the office; SET_LOW_WATER writes its mark. A handle that is not valid is answered UNKNOWN_FRAME.
A freed frame gives its blocks to the tail of the pool and its slot the next generation (R115). -/
def Obligations.StoreRequestsByTheirCases : Prop :=
  ∀ (args : List Byte) (s : State),
    (∀ v, 2 ≤ args.length → CanServe v s → let r := ready v s
      let h := argHandle args
      let held := fun (f : FrameRecord) (b : Bool) =>
        if issuer v = .line then { f with holders := { f.holders with line := b } }
        else { f with holders := { f.holders with office := b } };
      let put := fun (f : FrameRecord) (b : Bool) => r.setSlot h.slot { gen := h.gen, record := some (held f b) }
      (recordAt s h = none → Serves (.hold v args) v 0x52 args s r [0x09] ∧ Serves (.release v args) v 0x53 args s r [0x09] ∧
        Serves (.discard v args) v 0x54 args s r [0x09]) ∧
      (∀ f, recordAt s h = some f →
        (f.holders.has (issuer v) = true → Serves (.hold v args) v 0x52 args s r [0x0E] ∧
          Serves (.release v args) v 0x53 args s (put f false) [0x01]) ∧
        (f.holders.has (issuer v) = false → Serves (.hold v args) v 0x52 args s (put f true) [0x01] ∧
          Serves (.release v args) v 0x53 args s r [0x0B]) ∧
        (if f.state = .expected ∨ f.state = .filling ∨ f.previewState = .sending ∨ f.fullState = .sending ∨
            (f.item ≠ 0 ∧ f.copy = .none) then Serves (.discard v args) v 0x54 args s r [0x02]
          else if f.holders.has (match issuer v with | .line => .office | .office => .line) = true then
            Serves (.discard v args) v 0x54 args s r [0x0A]
          else Serves (.discard v args) v 0x54 args s (freeRecord h r) [0x01]))) ∧
    (∀ h f, recordAt s h = some f → freeRecord h s =
      (s.setFsto { s.fsto with
        pool := s.fsto.pool ++ f.fullBlocks ++ f.previewBlocks
        slots := s.fsto.slots.set h.slot { gen := h.gen + 1, record := none }
        age := s.fsto.age.filter fun a => a != h }).setFwd { s.fwd with
          pull := s.fwd.pull.filter fun e => e.handle != h
          preview := s.fwd.preview.filter fun e => e.handle != h }) ∧
    (CanServe .line s → let r := ready .line s
      let l := s.fsto.age.filter fun h => (recordAt s h).any fun f =>
        f.state.finished && decide (f.previewState ≠ .sending) && decide (f.fullState ≠ .sending) &&
          (decide (f.item = 0) || decide (f.copy ≠ .none))
      (∃ t, Serves (.clearStore .line args) .line 0x55 args s t
          (0x01 :: (be 2 l.length ++ be 2 (t.fsto.pool.length - s.fsto.pool.length))) ∧
        t = setOffice .storeCleared (l.foldl (fun s h => freeRecord h s) r) ∧
        (∀ h ∈ l, recordAt t h = none) ∧ (∀ h f, recordAt s h = some f → h ∉ l → recordAt t h = some f) ∧
        t.fsto.evictions = s.fsto.evictions ∧ t.fsto.recordShortages = s.fsto.recordShortages ∧
        t.fsto.blockShortages = s.fsto.blockShortages ∧ t.fsto.lowWater = s.fsto.lowWater ∧ t.itab = s.itab ∧
        t.trgu = s.trgu ∧ t.rnu.lineView = s.rnu.lineView ∧ t.rnu.officeView &&& 0x00001000 = 0x00001000) ∧
      (2 ≤ args.length →
        (argNat args 0 2 ≤ 16383 → Serves (.setLowWater .line args) .line 0x56 args s
          (r.setFsto { s.fsto with lowWater := argNat args 0 2 }) [0x01]) ∧
        (16384 ≤ argNat args 0 2 → Serves (.setLowWater .line args) .line 0x56 args s r [0x03])))

/-! ## The fibre link (08_the_fibre_link.md) and its transfers (09_forwarding.md) -/

/-- R151, R162, R164, R165, R183: the light and the retrains. Light takes a DOWN link without a hold to ALIGNING with the next
epoch; its loss takes an ALIGNING link to DOWN and leaves UP; a RETRAIN_LINK of LINE takes the link down at once with a hold of
100 µs and break fill, and one of OFFICE waits for its response; the hold's end, with the clock carried to it (log entry 1),
returns to idle frames and with light to ALIGNING. The leaving of UP writes its record, cuts the frame going out (log entry 12),
stops the framer, which is shown HUNTING in DOWN (log entry 13), empties FWD's share, and sets LINK_DOWN in the LINE view alone.
A hold's end with no hold is nothing (log entry 9). -/
def Obligations.LightAndRetrainsTakeTheLinkDown : Prop :=
  ∀ s : State, let l := s.lnk
    let lit := { s with pins := { s.pins with light := true } }
    let dark := { s with pins := { s.pins with light := false } }
    (inReset s = true → exec .lightGained s = .next lit ∧ exec .lightLost s = .next dark ∧
      exec .retrainHoldEnd s = .next s) ∧
    (inReset s = false →
      (l.state = .down → l.hold = none → exec .lightGained s = .next (lit.setLnk { l with
        state := .aligning, epoch := l.epoch + 1, framer := .hunting, reception := none, alignCount := 0, errorRun := 0
        far := none, farAligned := false })) ∧
      (l.state ≠ .down ∨ l.hold ≠ none → exec .lightGained s = .next lit) ∧
      (l.state = .down → exec .lightLost s = .next dark) ∧
      (l.state = .aligning → exec .lightLost s = .next (dark.setLnk { l with
        state := .down, framer := .hunting, reception := none, alignCount := 0, errorRun := 0 })) ∧
      (l.state = .up → exec .lightLost s = .next (leaveUp .lossOfLight true dark)) ∧
      (l.hold = none → exec .retrainHoldEnd s = .next s) ∧
      (∀ e, l.hold = some e → l.state = .down → ∃ t, exec .retrainHoldEnd s = .next t ∧ t.lnk.hold = none ∧
        t.lnk.state = (if s.pins.light then .aligning else .down) ∧
        t.lnk.epoch = (if s.pins.light then l.epoch + 1 else l.epoch) ∧
        t.lnk.tx = .idle t.lnk.state t.lnk.epoch none ∧ t.stamp = (reachTime e s).stamp ∧ t.fwd = s.fwd ∧ t.rnu = s.rnu)) ∧
    (∀ args, CanServe .line s → let r := ready .line s
      (l.state = .up → Serves (.retrainLink .line args) .line 0x69 args s (leaveUp .retrain true r) [0x01]) ∧
      (l.state = .aligning → Serves (.retrainLink .line args) .line 0x69 args s (r.setLnk { l with
        state := .down, framer := .hunting, reception := none, alignCount := 0, errorRun := 0
        hold := some (s.stamp + 10000), tx := .breakFill, txSent := 0 }) [0x01]) ∧
      (l.state = .down → Serves (.retrainLink .line args) .line 0x69 args s (r.setLnk { l with
        hold := some (s.stamp + 10000), tx := .breakFill, txSent := 0 }) [0x01])) ∧
    (∀ tag args, CanServe (.office tag) s → let r := ready (.office tag) s
      (l.retrainPending = true → Serves (.retrainLink (.office tag) args) (.office tag) 0x69 args s r [0x0E]) ∧
      (l.retrainPending = false → Serves (.retrainLink (.office tag) args) (.office tag) 0x69 args s
        (r.setLnk { r.lnk with retrainPending := true }) [0x01]) ∧
      (responseEntry tag 0x69 [0x01]).retrain = true ∧ (responseEntry tag 0x69 [0x0E]).retrain = false) ∧
    (∀ cause cutting, let t := leaveUp cause cutting s
      t.lnk.lastDown = some { cause := cause, stamp := s.stamp } ∧ t.lnk.counters = { l.counters with
        downs := l.counters.downs + 1
        cut := l.counters.cut + if cutting = true ∧ l.tx.counts = true then 1 else 0 } ∧
      t.lnk.farAligned = false ∧ t.lnk.idleDue = 0 ∧ t.lnk.retrainPending = false ∧ t.lnk.alignCount = 0 ∧
      t.lnk.errorRun = 0 ∧ t.lnk.framer = .hunting ∧ t.lnk.reception = none ∧
      (cause = .retrain → t.lnk.state = .down ∧ t.lnk.hold = some (s.stamp + 10000) ∧ t.lnk.tx = .breakFill ∧
        t.lnk.epoch = l.epoch) ∧
      (cause ≠ .retrain → l.hold = none → t.lnk.hold = none ∧
        t.lnk.state = (if s.pins.light then .aligning else .down) ∧
        t.lnk.epoch = (if s.pins.light then l.epoch + 1 else l.epoch) ∧
        t.lnk.tx = .idle t.lnk.state t.lnk.epoch none) ∧
      t.fwd.credit = 0 ∧ t.fwd.control = [] ∧ t.fwd.reserved = false ∧ t.fwd.fullLane = none ∧ t.fwd.previewLane = none ∧
      t.fwd.fullRun = 0 ∧ t.fwd.autoFull = s.fwd.autoFull ∧ t.fwd.holdRejected = s.fwd.holdRejected ∧
      t.fwd.counters.creditDiscarded = s.fwd.counters.creditDiscarded + BitVec.ofNat 32 s.fwd.credit ∧
      t.fwd.pull.map (·.handle) = s.fwd.pull.map (·.handle) ∧
      t.fwd.preview.map (·.handle) = s.fwd.preview.map (·.handle) ∧
      t.rnu = { s.rnu with lineView := s.rnu.lineView ||| 0x00008000 } ∧
      t.posu = s.posu ∧ t.capu = s.capu ∧ t.itab = s.itab ∧ t.trgu = s.trgu ∧ t.ports = s.ports ∧ t.packers = s.packers ∧
      t.fsto.pool = s.fsto.pool ∧ t.fsto.age = s.fsto.age ∧ t.fsto.mem = s.fsto.mem)

/-- R153 to R157, R160: delimiters. A correct one frames the receiver, places the next boundary, and in ALIGNING raises the
alignment count, at 16 of which the link enters UP and offers one STATUS, whose bytes are the up count, the stamp, the epoch,
the last down record, the OFFICE view and its mask, the lengths of the two queues, the full parts in AWAIT, the free blocks, the
live items and the next number, all as they stand at that event (R161; the presence byte of the down record is log entry 15); an
IMAGE delimiter sends the framer hunting as wrong kind (log entry 14). An error sends it hunting, and in UP the fourth in a row
leaves UP. A CONTROL header of more than 240 bytes is bad length. Nothing is received in DOWN or in device reset, and an event
of a mode the framer is not in is none (log entry 9). -/
def Obligations.DelimitersFrameAndAlignTheLink : Prop :=
  ∀ (d : Delimiter) (found : Option Delimiter) (len : Byte) (s : State), let l := s.lnk
    let opened : Option Reception := if d = .idle then some .idle else some .header
    let missed := s.setLnk { l with
      framer := .hunting, reception := none, alignCount := if l.state = .aligning then 0 else l.alignCount
      errorRun := if l.state = .up then l.errorRun + 1 else l.errorRun
      counters := { l.counters with delimiterErrors := l.counters.delimiterErrors + 1 } }
    (inReset s = true ∨ l.state = .down → exec (.receivedDelimiter found) s = .next s ∧
      exec (.huntDelimiterFound d) s = .next s ∧ exec .huntSpanExpiry s = .next s ∧
      exec (.controlHeaderReceived len) s = .next s) ∧
    (l.framer = .hunting → exec (.receivedDelimiter found) s = .next s) ∧
    (l.framer = .framed → exec (.huntDelimiterFound d) s = .next s ∧ exec .huntSpanExpiry s = .next s) ∧
    (l.reception ≠ some .header → exec (.controlHeaderReceived len) s = .next s) ∧
    (l.state = .aligning → l.framer = .hunting → exec .huntSpanExpiry s = .next s) ∧
    (inReset s = false → l.state ≠ .down →
      (l.framer = .framed → exec (.receivedDelimiter (some d)) s = .next (correctDelimiter d s)) ∧
      (l.framer = .hunting → exec (.huntDelimiterFound d) s = .next (correctDelimiter d s)) ∧
      (l.framer = .framed → l.state = .up ∧ 3 ≤ l.errorRun → exec (.receivedDelimiter none) s =
        .next (leaveUp .delimiterErrors true missed)) ∧
      (l.framer = .framed → ¬(l.state = .up ∧ 3 ≤ l.errorRun) → exec (.receivedDelimiter none) s = .next missed) ∧
      (l.framer = .hunting → l.state = .up → exec .huntSpanExpiry s =
        .next (if 3 ≤ l.errorRun then leaveUp .delimiterErrors true missed else missed)) ∧
      (l.reception = some .header → 240 < len.toNat → exec (.controlHeaderReceived len) s = .next (s.setLnk { l with
        framer := .hunting, reception := none, alignCount := if l.state = .aligning then 0 else l.alignCount
        counters := { l.counters with badLength := l.counters.badLength + 1 } })) ∧
      (l.reception = some .header → len.toNat ≤ 240 → exec (.controlHeaderReceived len) s =
        .next (s.setLnk { l with reception := some (.control len.toNat) }))) ∧
    (d ≠ .image →
      (l.state = .up → correctDelimiter d s = s.setLnk { l with framer := .framed, errorRun := 0, reception := opened }) ∧
      (l.state = .aligning → l.alignCount < 15 → correctDelimiter d s = s.setLnk { l with
        framer := .framed, alignCount := l.alignCount + 1, reception := opened }) ∧
      (l.state = .aligning → 15 ≤ l.alignCount → let t := correctDelimiter d s
        t.lnk = { l with
          state := .up, framer := .framed, alignCount := l.alignCount + 1, errorRun := 0, farAligned := false
          reception := opened, counters := { l.counters with ups := l.counters.ups + 1 } } ∧
        t.rnu.lineView = s.rnu.lineView ||| 0x00004000 ∧
        (occupancy s.fwd < 32 → t.rnu.officeView = s.rnu.officeView ∧
          t.fwd = { s.fwd with control := s.fwd.control ++ [{ frames := [{
            kind := .message, tag := 0, op := 0x03, body := statusBody (s.setLnk t.lnk) }] }] }) ∧
        (32 ≤ occupancy s.fwd → t = setOffice .messageLost ((setLine .linkUp (s.setLnk t.lnk)).setFwd { s.fwd with
          counters := { s.fwd.counters with messagesDropped := s.fwd.counters.messagesDropped + 1 } })))) ∧
    statusBody s =
      be 4 l.counters.ups.toNat ++ be 6 s.stamp.toNat ++ [l.epoch] ++
        (match l.lastDown with
          | none => List.replicate 8 0x00
          | some d => 0x01 :: (match d.cause with | .delimiterErrors => 0x00 | .lossOfLight => 0x01 | .retrain => 0x02) ::
              be 6 d.stamp.toNat) ++
        be 4 s.rnu.officeView.toNat ++ be 4 s.rnu.officeMask.toNat ++ be 2 s.fwd.preview.length ++ be 1 s.fwd.pull.length ++
        be 1 (s.fsto.slots.toList.countP fun sl => sl.record.any fun r => decide (r.fullState = .await)) ++
        be 2 s.fsto.pool.length ++ be 1 s.itab.items.length ++ be 3 s.itab.nextNumber ∧
    (l.state = .up → correctDelimiter .image s = s.setLnk { l with
      framer := .hunting, reception := none, errorRun := 0
      counters := { l.counters with wrongKind := l.counters.wrongKind + 1 } }) ∧
    (l.state = .aligning → l.alignCount < 15 → correctDelimiter .image s = s.setLnk { l with
      framer := .hunting, reception := none, alignCount := 0
      counters := { l.counters with wrongKind := l.counters.wrongKind + 1 } })

/-- R157, R158, R199: a frame whose last byte arrives. A CRC failure is counted; an intact idle frame gives the far state, and
in UP sets the far-aligned flag exactly where the sender is UP and echoes the part's epoch; a CONTROL frame that is no REQUEST
is wrong kind, and leaves the framer and the alignment count as they are (log entry 14); and a REQUEST is the request of the
table that its operation byte names, or is answered UNKNOWN_OPERATION. Of the far state's bytes the bits above their fields are
ignored, and the state 3 is kept and is not UP (log entry 25). Content of another length than that of the frame in reception is
no frame of it (log entry 9). -/
def Obligations.FramesAreCheckedAsTheyEnd : Prop :=
  ∀ (content : List Byte) (crc : BitVec 32) (s : State), let l := s.lnk
    (inReset s = true ∨ l.state = .down ∨ l.framer = .hunting ∨ l.reception = none →
      exec (.frameReceived content crc) s = .next s) ∧
    (inReset s = false → l.state ≠ .down → l.framer = .framed →
      (l.reception = some .idle → content.length = 59 →
        (crc32 content ≠ crc → exec (.frameReceived content crc) s = .next (s.setLnk { l with
          reception := none, counters := { l.counters with crcErrors := l.counters.crcErrors + 1 } })) ∧
        (crc32 content = crc →
          let far : FarState := { state := content.getD 0 0 &&& 3, epoch := content.getD 1 0
                                  echo := if content.getD 2 0 &&& 1 = 0 then none else some (content.getD 3 0) };
          exec (.frameReceived content crc) s = .next (s.setLnk { l with
            reception := none, far := some far
            farAligned := decide (l.state = .up ∧ far.state = 2 ∧ far.echo = some l.epoch) }))) ∧
      (∀ n, l.reception = some (.control n) → content.length = 5 + n →
        (crc32 content ≠ crc → exec (.frameReceived content crc) s = .next (s.setLnk { l with
          reception := none, counters := { l.counters with crcErrors := l.counters.crcErrors + 1 } })) ∧
        (crc32 content = crc → content.getD 0 0 ≠ 0 → exec (.frameReceived content crc) s = .next (s.setLnk { l with
          reception := none, counters := { l.counters with wrongKind := l.counters.wrongKind + 1 } })) ∧
        (crc32 content = crc → content.getD 0 0 = 0 →
          let tag := BitVec.ofNat 16 (argNat content 1 2)
          let op := content.getD 3 0
          (∀ i o, rowOf i = some o → i.request? = some (.office tag, content.drop 5) → o.code = op →
            exec (.frameReceived content crc) s = exec i s) ∧
          (op.toNat ∉ commandCodes → CanServe (.office tag) s → exec (.frameReceived content crc) s =
            .next (served (.office tag) op (content.drop 5) s (ready (.office tag) s) [0x06])))) ∧
      (l.reception = some .idle → content.length ≠ 59 → exec (.frameReceived content crc) s = .next s) ∧
      (∀ n, l.reception = some (.control n) → content.length ≠ 5 + n → exec (.frameReceived content crc) s = .next s))

/-- R152, R165, R173 to R175, R200: the end of the frame going out, with the clock carried to it (log entry 1). Its content has
gone out with the CRC after it; it is counted and reported sent; a marked response begins the retrain; and the transmitter takes
its next frame: from the head of the control queue, else with credit from a lane with work, one credit a segment, and otherwise
an idle frame. It asks only while UP with the far-aligned flag set and fewer than 16 frames since the last idle frame. The next
frame begins in the same stamp unit, k of its byte positions in (log entry 18), and an end with no frame going out is nothing
(log entry 9). -/
def Obligations.TheTransmitterTakesItsNextFrame : Prop :=
  ∀ s : State, let l := s.lnk
    (inReset s = true ∨ l.tx.counts = false → exec .transmitFrameEnd s = .next s) ∧
    (inReset s = false → l.tx.counts = true → ∃ c k, exec .transmitFrameEnd s =
        .next (frameEnded (c.setLnk { c.lnk with txSent := k })) ∧ k ≤ 11 ∧
      (sendWait l = 0 → c = s) ∧ (sendWait l ≠ 0 → c = elapse (sendWait l) s)) ∧
    (∀ a b e, l.tx = .idle a b e → frameEnded s = nextFrame (s.setLnk { l with
      idleDue := 0, sent := some { delimiter := .idle, bytes := l.tx.content ++ crcBytes l.tx.content } })) ∧
    (∀ f m, l.tx = .control f m →
      let t := s.setLnk { l with
        idleDue := l.idleDue + 1, counters := { l.counters with controlSent := l.counters.controlSent + 1 }
        sent := some { delimiter := .control, bytes := l.tx.content ++ crcBytes l.tx.content } };
      frameEnded s = if m = true ∧ l.retrainPending = true then leaveUp .retrain false t else nextFrame t) ∧
    (∀ g, l.tx = .image g → frameEnded s = nextFrame (segmentReport g (s.setLnk { l with
        idleDue := l.idleDue + 1, counters := { l.counters with imageSent := l.counters.imageSent + 1 }
        sent := some { delimiter := .image, bytes := l.tx.content ++ crcBytes l.tx.content } }))) ∧
    (¬(l.state = .up ∧ l.farAligned = true ∧ l.idleDue < 16) → nextFrame s = s.setLnk { l with tx := fill l }) ∧
    (l.state = .up ∧ l.farAligned = true ∧ l.idleDue < 16 →
      (∀ e rest f, s.fwd.control = e :: rest → e.frames = [f] → nextFrame s =
        (s.setLnk { l with tx := .control f e.retrain }).setFwd { s.fwd with control := rest }) ∧
      (∀ e rest f g more, s.fwd.control = e :: rest → e.frames = f :: g :: more → nextFrame s =
        (s.setLnk { l with tx := .control f false }).setFwd
          { s.fwd with control := { e with frames := g :: more } :: rest }) ∧
      (s.fwd.control = [] → s.fwd.credit = 0 ∨ chooseLane s.fwd = none →
        nextFrame s = s.setLnk { l with tx := fill l }) ∧
      (∀ p, s.fwd.control = [] → 1 ≤ s.fwd.credit → chooseLane s.fwd = some p →
        (∀ t, s.fwd.lane p = some t → ∃ u, nextFrame s = u ∧ u.lnk = { l with tx := .image (nextSegment p t s) } ∧
          u.fwd.credit = s.fwd.credit - 1 ∧
          u.fwd.lane p = some { t with next := t.next + 1, closed := t.abandoning } ∧
          u.fwd.fullRun = (match p with | .full => min 8 (s.fwd.fullRun + 1) | .preview => 0) ∧ u.fsto = s.fsto) ∧
        (∀ e r, s.fwd.lane p = none → (s.fwd.queue p).head? = some e → recordAt s e.handle = some r →
          ∃ u, nextFrame s = u ∧ u.lnk = { l with
            tx := .control (messageFrame 0x05 (transferBeginBody e.handle p e.restart r)) false } ∧
          u.fwd.credit = s.fwd.credit ∧
          u.fwd.lane p = some { handle := e.handle, segments := segmentCount (r.partBytes p), restart := e.restart } ∧
          recordAt u e.handle = some (r.partSending p)))) ∧
    (chooseLane s.fwd = some .preview ↔
      laneWork s.fwd .preview = true ∧ (laneWork s.fwd .full = false ∨ 8 ≤ s.fwd.fullRun)) ∧
    (chooseLane s.fwd = none ↔ laneWork s.fwd .preview = false ∧ laneWork s.fwd .full = false)

/-- R174 to R177, R180: segments. A part has as many as its bytes fill, and one where it has none. A lane has work while its
transfer has a segment to hand over, or, free, while its queue has an entry. The next segment carries its transfer's handle,
part and number, the bytes of its place in the part's run, and LAST at the last number; the closing segment of an abandoned
transfer has no payload, and LAST clear whatever its number (log entry 24). A segment sent is counted; an abandoned one frees
the lane and is counted so; and a LAST one frees the lane and completes the transfer: the part is SENT and its entry leaves the
queue, but for an abandoning transfer, which leaves both as they are. -/
def Obligations.SegmentsAreMadeAndReported : Prop :=
  (∀ total : Nat, segmentCount total = if total = 0 then 1 else (total + 8191) / 8192) ∧
  (∀ (f : Fwd) (p : Part), laneWork f p = true ↔
    match f.lane p with
    | some t => t.closed = false ∧ t.next < t.segments
    | none => f.queue p ≠ []) ∧
  (∀ (p : Part) (t : Transfer) (s : State), let g := nextSegment p t s
    (t.abandoning = true → g = {
      handle := t.handle, part := p, last := false, abandoned := true, number := t.next, payload := [] }) ∧
    (t.abandoning = false → ∀ r, recordAt s t.handle = some r →
      let total := match p with
        | .full => r.lines * r.format.lineBytes r.width
        | .preview => r.previewLines * match r.preview with | some d => r.width / d | none => 0
      let blocks := match p with
        | .full => r.fullBlocks
        | .preview => r.previewBlocks
      g.handle = t.handle ∧ g.part = p ∧ g.abandoned = false ∧ g.number = t.next ∧
      (g.last = true ↔ t.next + 1 = t.segments) ∧ g.payload.length = min 8192 (total - t.next * 8192) ∧
      ∀ k, k < g.payload.length → g.payload.getD k 0 = memRead s.fsto.mem (runAddress blocks (t.next * 8192 + k)))) ∧
  ∀ (g : Segment) (s : State), let t := segmentReport g s
    let c := s.fwd.counters
    let sent := match g.part with
      | .full => { c with fullSegments := c.fullSegments + 1 }
      | .preview => { c with previewSegments := c.previewSegments + 1 }
    let done := match g.part with
      | .full => { sent with fullTransfers := c.fullTransfers + 1 }
      | .preview => { sent with previewTransfers := c.previewTransfers + 1 }
    let freed := fun (k : ForwardCounters) => match g.part with
      | .full => { s.fwd with fullLane := none, counters := k }
      | .preview => { s.fwd with previewLane := none, counters := k }
    (g.abandoned = true → t = s.setFwd (freed { sent with abandoned := c.abandoned + 1 })) ∧
    (g.abandoned = false → g.last = false → t = s.setFwd { s.fwd with counters := sent }) ∧
    (g.abandoned = false → g.last = true → (∃ x, s.fwd.lane g.part = some x ∧ x.abandoning = true) →
      t = s.setFwd (freed done)) ∧
    (g.abandoned = false → g.last = true → (∀ x, s.fwd.lane g.part = some x → x.abandoning = false) →
      ∀ r, recordAt s g.handle = some r →
        t = (s.setSlot g.handle.slot { gen := g.handle.gen, record := some (match g.part with
          | .full => { r with fullState := .sent }
          | .preview => { r with previewState := .sent }) }).setFwd (match g.part with
          | .full => { freed done with pull := s.fwd.pull.filter fun e => e.handle != g.handle }
          | .preview => { freed done with preview := s.fwd.preview.filter fun e => e.handle != g.handle }))

/-! ## The forwarder (09_forwarding.md) -/

/-- R142, R171, R178, R180, R181: CREDIT adds to the image credit, up to 255; PULL queues a finished frame and waits for one
that is not; CANCEL_PULL takes a pull back, or abandons the transfer that sends it; SET_AUTO_FULL writes a port's policy; and
SET_HOLD_REJECTED, of OFFICE alone, writes the setting of that name. Each refusal changes nothing. -/
def Obligations.ForwarderRequestsByTheirCases : Prop :=
  (∀ (tag : BitVec 16) (args : List Byte) (s : State), 2 ≤ args.length → CanServe (.office tag) s →
    let v := Via.office tag
    let r := ready v s
    let h := argHandle args
    let n := argNat args 0 2
    (n = 0 ∨ 256 ≤ n → Serves (.credit v args) v 0x71 args s r [0x03]) ∧
    (1 ≤ n → n ≤ 255 →
      (s.fwd.credit + n ≤ 255 → Serves (.credit v args) v 0x71 args s
        (r.setFwd { r.fwd with credit := s.fwd.credit + n }) (0x01 :: be 1 (s.fwd.credit + n))) ∧
      (255 < s.fwd.credit + n → Serves (.credit v args) v 0x71 args s (r.setFwd { r.fwd with credit := 255 }) [0x13, 0xFF])) ∧
    (recordAt s h = none → Serves (.pull v args) v 0x72 args s r [0x09] ∧ Serves (.cancelPull v args) v 0x73 args s r [0x09]) ∧
    (∀ f, recordAt s h = some f →
      let put := fun (x : FullState) => r.setSlot h.slot { gen := h.gen, record := some { f with fullState := x } }
      let gone := s.fwd.pull.filter (fun e => e.handle != h)
      (f.fullState = .await ∨ f.fullState = .queued ∨ f.fullState = .sending →
        Serves (.pull v args) v 0x72 args s r [0x0E]) ∧
      (f.fullState = .none ∨ f.fullState = .sent → 64 ≤ pullLoad s → Serves (.pull v args) v 0x72 args s r [0x0C]) ∧
      (f.fullState = .none ∨ f.fullState = .sent → pullLoad s < 64 →
        (f.state = .expected ∨ f.state = .filling →
          Serves (.pull v args) v 0x72 args s (put .await) (0x01 :: 0x01 :: be 1 (pullLoad (put .await)))) ∧
        (f.state ≠ .expected → f.state ≠ .filling →
          let t := (put .queued).setFwd { r.fwd with pull := s.fwd.pull ++ [{ handle := h, restart := false }] };
          Serves (.pull v args) v 0x72 args s t (0x01 :: 0x02 :: be 1 (pullLoad t)))) ∧
      (f.fullState = .none ∨ f.fullState = .sent → Serves (.cancelPull v args) v 0x73 args s r [0x0F]) ∧
      (f.fullState = .await → Serves (.cancelPull v args) v 0x73 args s (put .none) [0x01]) ∧
      (f.fullState = .queued →
        Serves (.cancelPull v args) v 0x73 args s ((put .none).setFwd { r.fwd with pull := gone }) [0x01]) ∧
      (f.fullState = .sending → Serves (.cancelPull v args) v 0x73 args s ((put .none).setFwd { r.fwd with
        pull := gone, fullLane := s.fwd.fullLane.map fun t => { t with abandoning := true } }) [0x01])) ∧
    (8 ≤ argNat args 0 1 ∨ 3 ≤ argNat args 1 1 → Serves (.setAutoFull v args) v 0x74 args s r [0x03]) ∧
    (∀ (k : Unit8) (p : AutoFull), argNat args 0 1 = k.val → argNat args 1 1 = p.code.toNat →
      Serves (.setAutoFull v args) v 0x74 args s (r.setFwd { r.fwd with autoFull := s.fwd.autoFull.set k p }) [0x01])) ∧
  ∀ (args : List Byte) (s : State),
    (∀ tag, 1 ≤ args.length → CanServe (.office tag) s → let r := ready (.office tag) s
      (∀ b : Bool, argNat args 0 1 = b.toNat → Serves (.setHoldRejected (.office tag) args) (.office tag) 0x62 args s
        (r.setFwd { r.fwd with holdRejected := b }) [0x01]) ∧
      (2 ≤ argNat args 0 1 → Serves (.setHoldRejected (.office tag) args) (.office tag) 0x62 args s r [0x03])) ∧
    (∀ h, (deviceReset h s).fwd.holdRejected = false) ∧
    (∀ v i, i = .retrainLink v args ∨ i = .resetPort v args ∨ i = .clearStore v args →
      ∀ t, exec i s = .next t → t.fwd.holdRejected = s.fwd.holdRejected)

/-! ## What every step keeps -/

/-- Every step keeps the canonical form of the store's bytes, which is the model's own (log entry 6), and keeps every view and
mask within its own flags (R194, R195). -/
def Obligations.StepsKeepTheStoreAndTheViews : Prop :=
  ∀ s t : State, StoreAndViewsOk s → step s = .next t → StoreAndViewsOk t

/-- Every step keeps the position unit, the aux FIFO and the item table within the bounds their rules give, and the blind list
in the order in which a forward-running line will reach its entries from the position that the step leaves, nearest first (R4 to
R17, R27, R31, R32, R44, R46). That an entry at the present position counts as a whole turn away is log entry 28. -/
def Obligations.StepsKeepTheLineSide : Prop :=
  ∀ s t : State, PositionOk s.posu → TableOk s.posu.position s.capu s.itab → step s = .next t →
    PositionOk t.posu ∧ TableOk t.posu.position t.capu t.itab

/-- Every step keeps the link and the forwarder as their rules say: nothing for the office outside UP, no place reserved between
steps, the framer shown HUNTING in DOWN (log entry 13), and each count within its bound (R151 to R175, R183). -/
def Obligations.StepsKeepTheLinkAndTheForwarder : Prop :=
  ∀ s t : State, LinkOk s → step s = .next t → LinkOk t

/-- R31, R59: every step keeps the item numbers distinct and at most the newest item ENTERING, keeps each shot queue within its
load of 16 with entries of live items alone, and keeps the starts rising by MIN_ITEM_GAP. R31 rests on two things that no check
of R34 or R41 gives, so they are premises: no live item has the next item number, as one could after 16,777,215 assignments;
and, for the starts, that all of them lie within half the position range of the oldest, before the step and after it. -/
def Obligations.StepsKeepTheTriggers : Prop :=
  ∀ s t : State, TriggersOk s → (∀ it ∈ s.itab.items, it.number ≠ s.itab.nextNumber) → step s = .next t →
    TriggersOk t ∧ (StartsRise s.itab → WithinHalf s.itab → WithinHalf t.itab → StartsRise t.itab)

/-- R76, R98, R115, R126, R172: every step keeps each block in exactly one place, the age list the records that have ended, each
port's current frame, timer, context and window as its state says, and each image queue the records whose part is QUEUED or
SENDING, with the pull load at most 64 and each lane sending the head of its queue. -/
def Obligations.StepsKeepTheCatalogue : Prop :=
  ∀ s t : State, CatalogueOk s → QueuesOk s → step s = .next t → CatalogueOk t ∧ QueuesOk t

/-! ## Settings read back -/

/-- R22, R49: READ_POSITION_CONFIG and READ_ITEM_GEOMETRY may be issued by either master, are always answered OK, and return the
six settings of section 1.4 and the five of section 2.10 as they stand when the request is taken, in the order of those tables
and in bytes by R199. They change nothing. -/
def Obligations.SettingsAreReadAsTheyStand : Prop :=
  ∀ (v : Via) (args : List Byte) (s : State), CanServe v s → let p := s.posu.settings; let g := s.itab.geometry
    let sense := fun (x : Sense) => (match x with | .normal => 0x00 | .reverse => 0x01 : Byte)
    let verdict : Byte := match g.defaultVerdict with | .pass => 0x01 | .reject => 0x02
    let policy : Byte := match g.blindPolicy with | .reject => 0x00 | .ignore => 0x01
    Serves (.readPositionConfig v args) v 0x11 args s (ready v s) (0x01 :: (be 2 p.qualCount ++ be 2 p.switchLimit ++
      be 2 p.silenceWindow ++ be 1 p.faultLimit ++ [sense p.quadSense, sense p.stepSense])) ∧
    Serves (.readItemGeometry v args) v 0x22 args s (ready v s) (0x01 :: (be 2 g.minGap ++ be 4 g.maxLength ++
      be 4 g.ejectDistance ++ [verdict, policy]))
end

