-- ==== Sys2Proof/Laws/Blind.lean ====
section
/-! SUPPORT. The blind list's order (R44): where a position joins it, and what a move of the line leaves of it. -/

namespace Sys2Proof.Machine

/-- A position joins the list before the first entry that lies farther ahead, and so after an equal one (R44). -/
theorem placeBlind_split (now p : Pos) (l : List Pos) : ∃ a b, l = a ++ b ∧ placeBlind now p l = a ++ p :: b ∧
    (∀ q ∈ a, forwardDistance now q ≤ forwardDistance now p) ∧
    ∀ q, b.head? = some q → forwardDistance now p < forwardDistance now q := by
  induction l with
  | nil => exact ⟨[], [], rfl, rfl, nofun, nofun⟩
  | cons x t ih =>
    by_cases h : forwardDistance now p < forwardDistance now x
    · exact ⟨[], x :: t, rfl, if_pos h, nofun, fun q hq => Option.some.inj hq ▸ h⟩
    · obtain ⟨a, b, hl, hp, ha, hb⟩ := ih
      refine ⟨x :: a, b, congrArg (x :: ·) hl, (if_neg h).trans (congrArg (x :: ·) hp), ?_, hb⟩
      exact List.forall_mem_cons.2 ⟨Nat.le_of_not_lt h, ha⟩

theorem placeBlind_perm (now p : Pos) (l : List Pos) : (placeBlind now p l).Perm (p :: l) := by
  obtain ⟨a, b, hl, hp, -, -⟩ := placeBlind_split now p l
  rw [hp, hl]
  exact List.perm_middle

theorem placeBlind_length (now p : Pos) (l : List Pos) : (placeBlind now p l).length = l.length + 1 :=
  (placeBlind_perm now p l).length_eq

/-- A list in order stays so when a position joins it. -/
theorem placeBlind_order {now : Pos} {l : List Pos} (p : Pos) (h : BlindOrder now l) : BlindOrder now (placeBlind now p l) := by
  obtain ⟨a, b, hl, hp, ha, hb⟩ := placeBlind_split now p l
  unfold BlindOrder at h ⊢
  rw [hl, List.pairwise_append] at h
  rw [hp, List.pairwise_append, List.pairwise_cons]
  have hpb : ∀ q ∈ b, forwardDistance now p ≤ forwardDistance now q := by
    cases b with
    | nil => exact nofun
    | cons x t =>
      have hx := Nat.le_of_lt (hb x rfl)
      exact List.forall_mem_cons.2 ⟨hx, fun q hq => Nat.le_trans hx ((List.pairwise_cons.1 h.2.1).1 q hq)⟩
  exact ⟨h.1, ⟨hpb, h.2.1⟩, fun x hx => List.forall_mem_cons.2 ⟨ha x hx, h.2.2 x hx⟩⟩

theorem sortBlind_perm (now : Pos) (l : List Pos) : (sortBlind now l).Perm l := by
  suffices h : ∀ a : List Pos, (l.foldl (fun a p => placeBlind now p a) a).Perm (a ++ l) from h []
  induction l with
  | nil => intro a; rw [List.append_nil]; exact List.Perm.refl a
  | cons x t ih =>
    intro a
    exact (ih _).trans (((placeBlind_perm now x a).append_right t).trans List.perm_middle.symm)

/-- The sorted list is in order, whatever the list was. -/
theorem sortBlind_order (now : Pos) (l : List Pos) : BlindOrder now (sortBlind now l) := by
  suffices h : ∀ a, BlindOrder now a → BlindOrder now (l.foldl (fun a p => placeBlind now p a) a) from h [] List.Pairwise.nil
  induction l with
  | nil => exact fun _ ha => ha
  | cons x t ih => exact fun a ha => ih _ (placeBlind_order x ha)

/-- A forward count brings every entry but one at the new position nearer by one. -/
theorem forwardDistance_forward {now p : Pos} (h : p ≠ now + 1) :
    forwardDistance (now + 1) p + 1 = forwardDistance now p := by
  have hn : p.toNat ≠ (now + 1).toNat := fun h0 => h (BitVec.eq_of_toNat_eq h0)
  have := p.isLt
  have := now.isLt
  unfold forwardDistance
  simp only [BitVec.toNat_sub, BitVec.toNat_add, show (1 : Pos).toNat = 1 from rfl] at hn ⊢
  omega

/-- A forward count leaves the order of the entries that do not stand at the new position. -/
theorem BlindOrder.forward {now : Pos} {l : List Pos} (h : BlindOrder now l) :
    BlindOrder (now + 1) (l.filter (· ≠ now + 1)) := by
  unfold BlindOrder at h ⊢
  rw [List.pairwise_filter]
  refine h.imp fun {p q} hpq hp hq => ?_
  have e1 := forwardDistance_forward (of_decide_eq_true hp)
  have e2 := forwardDistance_forward (of_decide_eq_true hq)
  unfold forwardDistance at e1 e2
  omega

end Sys2Proof.Machine
end

