-- ==== Sys2Proof/Laws/Memory.lean ====
section
/-! SUPPORT. The store's bytes: every write keeps the canonical form, and a write is read back where it was made and
nowhere else. -/

namespace Sys2Proof.Machine

/-- A write leaves every listed address above a bound that holds for the list and for the address written. -/
theorem memWrite_above {k a : Nat} {b : Byte} {m : List Host.Cell} (h : ∀ c ∈ m, k < c.1) (ha : k < a) :
    ∀ c ∈ memWrite m a b, k < c.1 := by
  induction m with
  | nil =>
    intro c hc
    unfold memWrite at hc
    split at hc
    · cases hc
    · rw [List.mem_singleton] at hc; subst hc; exact ha
  | cons x t ih =>
    obtain ⟨k', v⟩ := x
    have ht : ∀ c ∈ t, k < c.1 := fun c hc => h c (List.mem_cons_of_mem _ hc)
    have hx : k < k' := h (k', v) List.mem_cons_self
    intro c hc
    unfold memWrite at hc
    split at hc
    · split at hc
      · exact h c hc
      · rcases List.mem_cons.1 hc with rfl | hc
        · exact ha
        · exact h c hc
    · split at hc
      · split at hc
        · exact ht c hc
        · rcases List.mem_cons.1 hc with rfl | hc
          · exact ha
          · exact ht c hc
      · rcases List.mem_cons.1 hc with rfl | hc
        · exact hx
        · exact ih ht c hc

/-- The canonical form of a nonempty list. -/
theorem memWf_cons {a : Nat} {b : Byte} {t : List Host.Cell} :
    memWf ((a, b) :: t) = true ↔ b ≠ unwrittenByte ∧ (∀ c ∈ t, a < c.1) ∧ memWf t = true := by
  simp [memWf, List.all_eq_true, and_assoc]

/-- A write keeps the canonical form. -/
theorem memWf_memWrite {m : List Host.Cell} (h : memWf m = true) (a : Nat) (b : Byte) : memWf (memWrite m a b) = true := by
  induction m with
  | nil =>
    unfold memWrite
    split
    · rfl
    · simp_all [memWf]
  | cons x t ih =>
    obtain ⟨k, v⟩ := x
    obtain ⟨hv, hk, ht⟩ := memWf_cons.1 h
    unfold memWrite
    split
    · rename_i hlt
      split
      · exact h
      · rename_i hb
        exact memWf_cons.2 ⟨hb, fun c hc => by
          rcases List.mem_cons.1 hc with rfl | hc
          · exact hlt
          · exact Nat.lt_trans hlt (hk c hc), h⟩
    · split
      · rename_i heq
        split
        · exact ht
        · rename_i hb
          exact memWf_cons.2 ⟨hb, fun c hc => heq ▸ hk c hc, ht⟩
      · rename_i hlt hne
        exact memWf_cons.2 ⟨hv, memWrite_above hk (by omega), ih ht⟩

/-- An address below every listed one reads as nothing written. -/
theorem memRead_below {m : List Host.Cell} {a : Nat} (h : ∀ c ∈ m, a < c.1) : memRead m a = unwrittenByte := by
  induction m with
  | nil => rfl
  | cons x t ih =>
    obtain ⟨k, v⟩ := x
    have hk : a < k := h (k, v) List.mem_cons_self
    unfold memRead
    rw [if_neg (by omega)]
    exact ih fun c hc => h c (List.mem_cons_of_mem _ hc)

/-- A byte written is read back. -/
theorem memRead_memWrite {m : List Host.Cell} (h : memWf m = true) (a : Nat) (b : Byte) :
    memRead (memWrite m a b) a = b := by
  induction m with
  | nil =>
    unfold memWrite
    split
    · rename_i hb; rw [hb]; rfl
    · simp [memRead]
  | cons x t ih =>
    obtain ⟨k, v⟩ := x
    obtain ⟨_, hk, ht⟩ := memWf_cons.1 h
    unfold memWrite
    split
    · rename_i hlt
      split
      · rename_i hb
        rw [hb]
        exact memRead_below fun c hc => by
          rcases List.mem_cons.1 hc with rfl | hc
          · exact hlt
          · exact Nat.lt_trans hlt (hk c hc)
      · simp [memRead]
    · split
      · rename_i heq
        split
        · rename_i hb
          rw [hb]
          exact memRead_below fun c hc => heq ▸ hk c hc
        · simp [memRead]
      · rename_i hlt hne
        simp [memRead, hne, ih ht]

/-- A byte elsewhere reads as before. -/
theorem memRead_memWrite_ne {m : List Host.Cell} {a x : Nat} (hx : x ≠ a) (b : Byte) :
    memRead (memWrite m a b) x = memRead m x := by
  induction m with
  | nil =>
    unfold memWrite
    split
    · rfl
    · simp [memRead, hx]
  | cons y t ih =>
    obtain ⟨k, v⟩ := y
    unfold memWrite
    split
    · split
      · rfl
      · simp [memRead, hx]
    · split
      · rename_i heq
        subst heq
        split
        · simp [memRead, hx]
        · simp [memRead, hx]
      · simp [memRead, ih]

/-- A run of writes keeps the canonical form. -/
theorem memWf_writeRun (blocks : List Block) (bs : List Byte) (off : Nat) {m : List Host.Cell} (h : memWf m = true) :
    memWf (writeRun blocks off bs m) = true := by
  induction bs generalizing off m with
  | nil => exact h
  | cons b t ih => exact ih (off + 1) (memWf_memWrite h _ _)

/-- A run of writes leaves every address outside the run as it was. -/
theorem memRead_writeRun {blocks : List Block} {bs : List Byte} {off x : Nat} {m : List Host.Cell}
    (h : ∀ i, i < bs.length → x ≠ runAddress blocks (off + i)) :
    memRead (writeRun blocks off bs m) x = memRead m x := by
  induction bs generalizing off m with
  | nil => rfl
  | cons b t ih =>
    have h0 : x ≠ runAddress blocks off := h 0 (by simp)
    have ht : ∀ i, i < t.length → x ≠ runAddress blocks (off + 1 + i) := fun i hi => by
      have := h (i + 1) (by simpa using hi)
      rwa [Nat.add_assoc, Nat.add_comm 1 i]
    unfold writeRun
    rw [ih ht, memRead_memWrite_ne h0]

end Sys2Proof.Machine
end

