-- ==== Sys2Proof/Laws/State.lean ====
section
/-! SUPPORT. One lemma for each field and each named update of the state, and what `chan`, `port` and `packer` read after
one. -/

namespace Sys2Proof.Machine

variable (s : State)

/-! ### setPosu -/

@[simp] theorem State.setPosu_pending (p : Posu) : (s.setPosu p).pending = s.pending := rfl
@[simp] theorem State.setPosu_stamp (p : Posu) : (s.setPosu p).stamp = s.stamp := rfl
@[simp] theorem State.setPosu_hold (p : Posu) : (s.setPosu p).hold = s.hold := rfl
@[simp] theorem State.setPosu_orderIndex (p : Posu) : (s.setPosu p).orderIndex = s.orderIndex := rfl
@[simp] theorem State.setPosu_pins (p : Posu) : (s.setPosu p).pins = s.pins := rfl
@[simp] theorem State.setPosu_posu (p : Posu) : (s.setPosu p).posu = p := rfl
@[simp] theorem State.setPosu_capu (p : Posu) : (s.setPosu p).capu = s.capu := rfl
@[simp] theorem State.setPosu_itab (p : Posu) : (s.setPosu p).itab = s.itab := rfl
@[simp] theorem State.setPosu_trgu (p : Posu) : (s.setPosu p).trgu = s.trgu := rfl
@[simp] theorem State.setPosu_ports (p : Posu) : (s.setPosu p).ports = s.ports := rfl
@[simp] theorem State.setPosu_packers (p : Posu) : (s.setPosu p).packers = s.packers := rfl
@[simp] theorem State.setPosu_fsto (p : Posu) : (s.setPosu p).fsto = s.fsto := rfl
@[simp] theorem State.setPosu_lnk (p : Posu) : (s.setPosu p).lnk = s.lnk := rfl
@[simp] theorem State.setPosu_fwd (p : Posu) : (s.setPosu p).fwd = s.fwd := rfl
@[simp] theorem State.setPosu_rnu (p : Posu) : (s.setPosu p).rnu = s.rnu := rfl

/-! ### setCapu -/

@[simp] theorem State.setCapu_pending (c : Capu) : (s.setCapu c).pending = s.pending := rfl
@[simp] theorem State.setCapu_stamp (c : Capu) : (s.setCapu c).stamp = s.stamp := rfl
@[simp] theorem State.setCapu_hold (c : Capu) : (s.setCapu c).hold = s.hold := rfl
@[simp] theorem State.setCapu_orderIndex (c : Capu) : (s.setCapu c).orderIndex = s.orderIndex := rfl
@[simp] theorem State.setCapu_pins (c : Capu) : (s.setCapu c).pins = s.pins := rfl
@[simp] theorem State.setCapu_posu (c : Capu) : (s.setCapu c).posu = s.posu := rfl
@[simp] theorem State.setCapu_capu (c : Capu) : (s.setCapu c).capu = c := rfl
@[simp] theorem State.setCapu_itab (c : Capu) : (s.setCapu c).itab = s.itab := rfl
@[simp] theorem State.setCapu_trgu (c : Capu) : (s.setCapu c).trgu = s.trgu := rfl
@[simp] theorem State.setCapu_ports (c : Capu) : (s.setCapu c).ports = s.ports := rfl
@[simp] theorem State.setCapu_packers (c : Capu) : (s.setCapu c).packers = s.packers := rfl
@[simp] theorem State.setCapu_fsto (c : Capu) : (s.setCapu c).fsto = s.fsto := rfl
@[simp] theorem State.setCapu_lnk (c : Capu) : (s.setCapu c).lnk = s.lnk := rfl
@[simp] theorem State.setCapu_fwd (c : Capu) : (s.setCapu c).fwd = s.fwd := rfl
@[simp] theorem State.setCapu_rnu (c : Capu) : (s.setCapu c).rnu = s.rnu := rfl

/-! ### setItab -/

@[simp] theorem State.setItab_pending (t : Itab) : (s.setItab t).pending = s.pending := rfl
@[simp] theorem State.setItab_stamp (t : Itab) : (s.setItab t).stamp = s.stamp := rfl
@[simp] theorem State.setItab_hold (t : Itab) : (s.setItab t).hold = s.hold := rfl
@[simp] theorem State.setItab_orderIndex (t : Itab) : (s.setItab t).orderIndex = s.orderIndex := rfl
@[simp] theorem State.setItab_pins (t : Itab) : (s.setItab t).pins = s.pins := rfl
@[simp] theorem State.setItab_posu (t : Itab) : (s.setItab t).posu = s.posu := rfl
@[simp] theorem State.setItab_capu (t : Itab) : (s.setItab t).capu = s.capu := rfl
@[simp] theorem State.setItab_itab (t : Itab) : (s.setItab t).itab = t := rfl
@[simp] theorem State.setItab_trgu (t : Itab) : (s.setItab t).trgu = s.trgu := rfl
@[simp] theorem State.setItab_ports (t : Itab) : (s.setItab t).ports = s.ports := rfl
@[simp] theorem State.setItab_packers (t : Itab) : (s.setItab t).packers = s.packers := rfl
@[simp] theorem State.setItab_fsto (t : Itab) : (s.setItab t).fsto = s.fsto := rfl
@[simp] theorem State.setItab_lnk (t : Itab) : (s.setItab t).lnk = s.lnk := rfl
@[simp] theorem State.setItab_fwd (t : Itab) : (s.setItab t).fwd = s.fwd := rfl
@[simp] theorem State.setItab_rnu (t : Itab) : (s.setItab t).rnu = s.rnu := rfl

/-! ### setFsto -/

@[simp] theorem State.setFsto_pending (f : Fsto) : (s.setFsto f).pending = s.pending := rfl
@[simp] theorem State.setFsto_stamp (f : Fsto) : (s.setFsto f).stamp = s.stamp := rfl
@[simp] theorem State.setFsto_hold (f : Fsto) : (s.setFsto f).hold = s.hold := rfl
@[simp] theorem State.setFsto_orderIndex (f : Fsto) : (s.setFsto f).orderIndex = s.orderIndex := rfl
@[simp] theorem State.setFsto_pins (f : Fsto) : (s.setFsto f).pins = s.pins := rfl
@[simp] theorem State.setFsto_posu (f : Fsto) : (s.setFsto f).posu = s.posu := rfl
@[simp] theorem State.setFsto_capu (f : Fsto) : (s.setFsto f).capu = s.capu := rfl
@[simp] theorem State.setFsto_itab (f : Fsto) : (s.setFsto f).itab = s.itab := rfl
@[simp] theorem State.setFsto_trgu (f : Fsto) : (s.setFsto f).trgu = s.trgu := rfl
@[simp] theorem State.setFsto_ports (f : Fsto) : (s.setFsto f).ports = s.ports := rfl
@[simp] theorem State.setFsto_packers (f : Fsto) : (s.setFsto f).packers = s.packers := rfl
@[simp] theorem State.setFsto_fsto (f : Fsto) : (s.setFsto f).fsto = f := rfl
@[simp] theorem State.setFsto_lnk (f : Fsto) : (s.setFsto f).lnk = s.lnk := rfl
@[simp] theorem State.setFsto_fwd (f : Fsto) : (s.setFsto f).fwd = s.fwd := rfl
@[simp] theorem State.setFsto_rnu (f : Fsto) : (s.setFsto f).rnu = s.rnu := rfl

/-! ### setLnk -/

@[simp] theorem State.setLnk_pending (l : Lnk) : (s.setLnk l).pending = s.pending := rfl
@[simp] theorem State.setLnk_stamp (l : Lnk) : (s.setLnk l).stamp = s.stamp := rfl
@[simp] theorem State.setLnk_hold (l : Lnk) : (s.setLnk l).hold = s.hold := rfl
@[simp] theorem State.setLnk_orderIndex (l : Lnk) : (s.setLnk l).orderIndex = s.orderIndex := rfl
@[simp] theorem State.setLnk_pins (l : Lnk) : (s.setLnk l).pins = s.pins := rfl
@[simp] theorem State.setLnk_posu (l : Lnk) : (s.setLnk l).posu = s.posu := rfl
@[simp] theorem State.setLnk_capu (l : Lnk) : (s.setLnk l).capu = s.capu := rfl
@[simp] theorem State.setLnk_itab (l : Lnk) : (s.setLnk l).itab = s.itab := rfl
@[simp] theorem State.setLnk_trgu (l : Lnk) : (s.setLnk l).trgu = s.trgu := rfl
@[simp] theorem State.setLnk_ports (l : Lnk) : (s.setLnk l).ports = s.ports := rfl
@[simp] theorem State.setLnk_packers (l : Lnk) : (s.setLnk l).packers = s.packers := rfl
@[simp] theorem State.setLnk_fsto (l : Lnk) : (s.setLnk l).fsto = s.fsto := rfl
@[simp] theorem State.setLnk_lnk (l : Lnk) : (s.setLnk l).lnk = l := rfl
@[simp] theorem State.setLnk_fwd (l : Lnk) : (s.setLnk l).fwd = s.fwd := rfl
@[simp] theorem State.setLnk_rnu (l : Lnk) : (s.setLnk l).rnu = s.rnu := rfl

/-! ### setFwd -/

@[simp] theorem State.setFwd_pending (f : Fwd) : (s.setFwd f).pending = s.pending := rfl
@[simp] theorem State.setFwd_stamp (f : Fwd) : (s.setFwd f).stamp = s.stamp := rfl
@[simp] theorem State.setFwd_hold (f : Fwd) : (s.setFwd f).hold = s.hold := rfl
@[simp] theorem State.setFwd_orderIndex (f : Fwd) : (s.setFwd f).orderIndex = s.orderIndex := rfl
@[simp] theorem State.setFwd_pins (f : Fwd) : (s.setFwd f).pins = s.pins := rfl
@[simp] theorem State.setFwd_posu (f : Fwd) : (s.setFwd f).posu = s.posu := rfl
@[simp] theorem State.setFwd_capu (f : Fwd) : (s.setFwd f).capu = s.capu := rfl
@[simp] theorem State.setFwd_itab (f : Fwd) : (s.setFwd f).itab = s.itab := rfl
@[simp] theorem State.setFwd_trgu (f : Fwd) : (s.setFwd f).trgu = s.trgu := rfl
@[simp] theorem State.setFwd_ports (f : Fwd) : (s.setFwd f).ports = s.ports := rfl
@[simp] theorem State.setFwd_packers (f : Fwd) : (s.setFwd f).packers = s.packers := rfl
@[simp] theorem State.setFwd_fsto (f : Fwd) : (s.setFwd f).fsto = s.fsto := rfl
@[simp] theorem State.setFwd_lnk (f : Fwd) : (s.setFwd f).lnk = s.lnk := rfl
@[simp] theorem State.setFwd_fwd (f : Fwd) : (s.setFwd f).fwd = f := rfl
@[simp] theorem State.setFwd_rnu (f : Fwd) : (s.setFwd f).rnu = s.rnu := rfl

/-! ### setRnu -/

@[simp] theorem State.setRnu_pending (r : Rnu) : (s.setRnu r).pending = s.pending := rfl
@[simp] theorem State.setRnu_stamp (r : Rnu) : (s.setRnu r).stamp = s.stamp := rfl
@[simp] theorem State.setRnu_hold (r : Rnu) : (s.setRnu r).hold = s.hold := rfl
@[simp] theorem State.setRnu_orderIndex (r : Rnu) : (s.setRnu r).orderIndex = s.orderIndex := rfl
@[simp] theorem State.setRnu_pins (r : Rnu) : (s.setRnu r).pins = s.pins := rfl
@[simp] theorem State.setRnu_posu (r : Rnu) : (s.setRnu r).posu = s.posu := rfl
@[simp] theorem State.setRnu_capu (r : Rnu) : (s.setRnu r).capu = s.capu := rfl
@[simp] theorem State.setRnu_itab (r : Rnu) : (s.setRnu r).itab = s.itab := rfl
@[simp] theorem State.setRnu_trgu (r : Rnu) : (s.setRnu r).trgu = s.trgu := rfl
@[simp] theorem State.setRnu_ports (r : Rnu) : (s.setRnu r).ports = s.ports := rfl
@[simp] theorem State.setRnu_packers (r : Rnu) : (s.setRnu r).packers = s.packers := rfl
@[simp] theorem State.setRnu_fsto (r : Rnu) : (s.setRnu r).fsto = s.fsto := rfl
@[simp] theorem State.setRnu_lnk (r : Rnu) : (s.setRnu r).lnk = s.lnk := rfl
@[simp] theorem State.setRnu_fwd (r : Rnu) : (s.setRnu r).fwd = s.fwd := rfl
@[simp] theorem State.setRnu_rnu (r : Rnu) : (s.setRnu r).rnu = r := rfl

/-! ### setEject -/

@[simp] theorem State.setEject_pending (e : EjectTimer) : (s.setEject e).pending = s.pending := rfl
@[simp] theorem State.setEject_stamp (e : EjectTimer) : (s.setEject e).stamp = s.stamp := rfl
@[simp] theorem State.setEject_hold (e : EjectTimer) : (s.setEject e).hold = s.hold := rfl
@[simp] theorem State.setEject_orderIndex (e : EjectTimer) : (s.setEject e).orderIndex = s.orderIndex := rfl
@[simp] theorem State.setEject_pins (e : EjectTimer) : (s.setEject e).pins = s.pins := rfl
@[simp] theorem State.setEject_posu (e : EjectTimer) : (s.setEject e).posu = s.posu := rfl
@[simp] theorem State.setEject_capu (e : EjectTimer) : (s.setEject e).capu = s.capu := rfl
@[simp] theorem State.setEject_itab (e : EjectTimer) : (s.setEject e).itab = s.itab := rfl
@[simp] theorem State.setEject_trgu (e : EjectTimer) : (s.setEject e).trgu = { s.trgu with eject := e } := rfl
@[simp] theorem State.setEject_ports (e : EjectTimer) : (s.setEject e).ports = s.ports := rfl
@[simp] theorem State.setEject_packers (e : EjectTimer) : (s.setEject e).packers = s.packers := rfl
@[simp] theorem State.setEject_fsto (e : EjectTimer) : (s.setEject e).fsto = s.fsto := rfl
@[simp] theorem State.setEject_lnk (e : EjectTimer) : (s.setEject e).lnk = s.lnk := rfl
@[simp] theorem State.setEject_fwd (e : EjectTimer) : (s.setEject e).fwd = s.fwd := rfl
@[simp] theorem State.setEject_rnu (e : EjectTimer) : (s.setEject e).rnu = s.rnu := rfl

/-! ### choseOrder -/

@[simp] theorem State.choseOrder_pending (k : Nat) : (s.choseOrder k).pending = s.pending := rfl
@[simp] theorem State.choseOrder_stamp (k : Nat) : (s.choseOrder k).stamp = s.stamp := rfl
@[simp] theorem State.choseOrder_hold (k : Nat) : (s.choseOrder k).hold = s.hold := rfl
@[simp] theorem State.choseOrder_orderIndex (k : Nat) : (s.choseOrder k).orderIndex = s.orderIndex + k := rfl
@[simp] theorem State.choseOrder_pins (k : Nat) : (s.choseOrder k).pins = s.pins := rfl
@[simp] theorem State.choseOrder_posu (k : Nat) : (s.choseOrder k).posu = s.posu := rfl
@[simp] theorem State.choseOrder_capu (k : Nat) : (s.choseOrder k).capu = s.capu := rfl
@[simp] theorem State.choseOrder_itab (k : Nat) : (s.choseOrder k).itab = s.itab := rfl
@[simp] theorem State.choseOrder_trgu (k : Nat) : (s.choseOrder k).trgu = s.trgu := rfl
@[simp] theorem State.choseOrder_ports (k : Nat) : (s.choseOrder k).ports = s.ports := rfl
@[simp] theorem State.choseOrder_packers (k : Nat) : (s.choseOrder k).packers = s.packers := rfl
@[simp] theorem State.choseOrder_fsto (k : Nat) : (s.choseOrder k).fsto = s.fsto := rfl
@[simp] theorem State.choseOrder_lnk (k : Nat) : (s.choseOrder k).lnk = s.lnk := rfl
@[simp] theorem State.choseOrder_fwd (k : Nat) : (s.choseOrder k).fwd = s.fwd := rfl
@[simp] theorem State.choseOrder_rnu (k : Nat) : (s.choseOrder k).rnu = s.rnu := rfl

/-! ### setChan -/

@[simp] theorem State.setChan_pending (n : Unit8) (c : Channel) : (s.setChan n c).pending = s.pending := rfl
@[simp] theorem State.setChan_stamp (n : Unit8) (c : Channel) : (s.setChan n c).stamp = s.stamp := rfl
@[simp] theorem State.setChan_hold (n : Unit8) (c : Channel) : (s.setChan n c).hold = s.hold := rfl
@[simp] theorem State.setChan_orderIndex (n : Unit8) (c : Channel) : (s.setChan n c).orderIndex = s.orderIndex := rfl
@[simp] theorem State.setChan_pins (n : Unit8) (c : Channel) : (s.setChan n c).pins = s.pins := rfl
@[simp] theorem State.setChan_posu (n : Unit8) (c : Channel) : (s.setChan n c).posu = s.posu := rfl
@[simp] theorem State.setChan_capu (n : Unit8) (c : Channel) : (s.setChan n c).capu = s.capu := rfl
@[simp] theorem State.setChan_itab (n : Unit8) (c : Channel) : (s.setChan n c).itab = s.itab := rfl
@[simp] theorem State.setChan_trgu (n : Unit8) (c : Channel) : (s.setChan n c).trgu = { s.trgu with channels := s.trgu.channels.set n c } := rfl
@[simp] theorem State.setChan_ports (n : Unit8) (c : Channel) : (s.setChan n c).ports = s.ports := rfl
@[simp] theorem State.setChan_packers (n : Unit8) (c : Channel) : (s.setChan n c).packers = s.packers := rfl
@[simp] theorem State.setChan_fsto (n : Unit8) (c : Channel) : (s.setChan n c).fsto = s.fsto := rfl
@[simp] theorem State.setChan_lnk (n : Unit8) (c : Channel) : (s.setChan n c).lnk = s.lnk := rfl
@[simp] theorem State.setChan_fwd (n : Unit8) (c : Channel) : (s.setChan n c).fwd = s.fwd := rfl
@[simp] theorem State.setChan_rnu (n : Unit8) (c : Channel) : (s.setChan n c).rnu = s.rnu := rfl

/-! ### setPort -/

@[simp] theorem State.setPort_pending (n : Unit8) (p : Port) : (s.setPort n p).pending = s.pending := rfl
@[simp] theorem State.setPort_stamp (n : Unit8) (p : Port) : (s.setPort n p).stamp = s.stamp := rfl
@[simp] theorem State.setPort_hold (n : Unit8) (p : Port) : (s.setPort n p).hold = s.hold := rfl
@[simp] theorem State.setPort_orderIndex (n : Unit8) (p : Port) : (s.setPort n p).orderIndex = s.orderIndex := rfl
@[simp] theorem State.setPort_pins (n : Unit8) (p : Port) : (s.setPort n p).pins = s.pins := rfl
@[simp] theorem State.setPort_posu (n : Unit8) (p : Port) : (s.setPort n p).posu = s.posu := rfl
@[simp] theorem State.setPort_capu (n : Unit8) (p : Port) : (s.setPort n p).capu = s.capu := rfl
@[simp] theorem State.setPort_itab (n : Unit8) (p : Port) : (s.setPort n p).itab = s.itab := rfl
@[simp] theorem State.setPort_trgu (n : Unit8) (p : Port) : (s.setPort n p).trgu = s.trgu := rfl
@[simp] theorem State.setPort_ports (n : Unit8) (p : Port) : (s.setPort n p).ports = s.ports.set n p := rfl
@[simp] theorem State.setPort_packers (n : Unit8) (p : Port) : (s.setPort n p).packers = s.packers := rfl
@[simp] theorem State.setPort_fsto (n : Unit8) (p : Port) : (s.setPort n p).fsto = s.fsto := rfl
@[simp] theorem State.setPort_lnk (n : Unit8) (p : Port) : (s.setPort n p).lnk = s.lnk := rfl
@[simp] theorem State.setPort_fwd (n : Unit8) (p : Port) : (s.setPort n p).fwd = s.fwd := rfl
@[simp] theorem State.setPort_rnu (n : Unit8) (p : Port) : (s.setPort n p).rnu = s.rnu := rfl

/-! ### setPacker -/

@[simp] theorem State.setPacker_pending (n : Unit8) (p : Packer) : (s.setPacker n p).pending = s.pending := rfl
@[simp] theorem State.setPacker_stamp (n : Unit8) (p : Packer) : (s.setPacker n p).stamp = s.stamp := rfl
@[simp] theorem State.setPacker_hold (n : Unit8) (p : Packer) : (s.setPacker n p).hold = s.hold := rfl
@[simp] theorem State.setPacker_orderIndex (n : Unit8) (p : Packer) : (s.setPacker n p).orderIndex = s.orderIndex := rfl
@[simp] theorem State.setPacker_pins (n : Unit8) (p : Packer) : (s.setPacker n p).pins = s.pins := rfl
@[simp] theorem State.setPacker_posu (n : Unit8) (p : Packer) : (s.setPacker n p).posu = s.posu := rfl
@[simp] theorem State.setPacker_capu (n : Unit8) (p : Packer) : (s.setPacker n p).capu = s.capu := rfl
@[simp] theorem State.setPacker_itab (n : Unit8) (p : Packer) : (s.setPacker n p).itab = s.itab := rfl
@[simp] theorem State.setPacker_trgu (n : Unit8) (p : Packer) : (s.setPacker n p).trgu = s.trgu := rfl
@[simp] theorem State.setPacker_ports (n : Unit8) (p : Packer) : (s.setPacker n p).ports = s.ports := rfl
@[simp] theorem State.setPacker_packers (n : Unit8) (p : Packer) : (s.setPacker n p).packers = s.packers.set n p := rfl
@[simp] theorem State.setPacker_fsto (n : Unit8) (p : Packer) : (s.setPacker n p).fsto = s.fsto := rfl
@[simp] theorem State.setPacker_lnk (n : Unit8) (p : Packer) : (s.setPacker n p).lnk = s.lnk := rfl
@[simp] theorem State.setPacker_fwd (n : Unit8) (p : Packer) : (s.setPacker n p).fwd = s.fwd := rfl
@[simp] theorem State.setPacker_rnu (n : Unit8) (p : Packer) : (s.setPacker n p).rnu = s.rnu := rfl

/-! ### setSlot -/

@[simp] theorem State.setSlot_pending (i : Fin 512) (sl : Slot) : (s.setSlot i sl).pending = s.pending := rfl
@[simp] theorem State.setSlot_stamp (i : Fin 512) (sl : Slot) : (s.setSlot i sl).stamp = s.stamp := rfl
@[simp] theorem State.setSlot_hold (i : Fin 512) (sl : Slot) : (s.setSlot i sl).hold = s.hold := rfl
@[simp] theorem State.setSlot_orderIndex (i : Fin 512) (sl : Slot) : (s.setSlot i sl).orderIndex = s.orderIndex := rfl
@[simp] theorem State.setSlot_pins (i : Fin 512) (sl : Slot) : (s.setSlot i sl).pins = s.pins := rfl
@[simp] theorem State.setSlot_posu (i : Fin 512) (sl : Slot) : (s.setSlot i sl).posu = s.posu := rfl
@[simp] theorem State.setSlot_capu (i : Fin 512) (sl : Slot) : (s.setSlot i sl).capu = s.capu := rfl
@[simp] theorem State.setSlot_itab (i : Fin 512) (sl : Slot) : (s.setSlot i sl).itab = s.itab := rfl
@[simp] theorem State.setSlot_trgu (i : Fin 512) (sl : Slot) : (s.setSlot i sl).trgu = s.trgu := rfl
@[simp] theorem State.setSlot_ports (i : Fin 512) (sl : Slot) : (s.setSlot i sl).ports = s.ports := rfl
@[simp] theorem State.setSlot_packers (i : Fin 512) (sl : Slot) : (s.setSlot i sl).packers = s.packers := rfl
@[simp] theorem State.setSlot_fsto (i : Fin 512) (sl : Slot) : (s.setSlot i sl).fsto = { s.fsto with slots := s.fsto.slots.set i sl } := rfl
@[simp] theorem State.setSlot_lnk (i : Fin 512) (sl : Slot) : (s.setSlot i sl).lnk = s.lnk := rfl
@[simp] theorem State.setSlot_fwd (i : Fin 512) (sl : Slot) : (s.setSlot i sl).fwd = s.fwd := rfl
@[simp] theorem State.setSlot_rnu (i : Fin 512) (sl : Slot) : (s.setSlot i sl).rnu = s.rnu := rfl

/-! ### Reading a unit after an update -/

@[simp] theorem State.chan_setChan (n : Unit8) (c : Channel) : (s.setChan n c).chan n = c := by
  simp [State.chan, State.setChan]

theorem State.chan_setChan_ne {n m : Unit8} (c : Channel) (h : n ≠ m) : (s.setChan n c).chan m = s.chan m := by
  have h' : (n : Nat) ≠ m := fun e => h (Fin.ext e)
  simp [State.chan, State.setChan, h']

@[simp] theorem State.port_setPort (n : Unit8) (p : Port) : (s.setPort n p).port n = p := by
  simp [State.port, State.setPort]

theorem State.port_setPort_ne {n m : Unit8} (p : Port) (h : n ≠ m) : (s.setPort n p).port m = s.port m := by
  have h' : (n : Nat) ≠ m := fun e => h (Fin.ext e)
  simp [State.port, State.setPort, h']

@[simp] theorem State.packer_setPacker (n : Unit8) (p : Packer) : (s.setPacker n p).packer n = p := by
  simp [State.packer, State.setPacker]

theorem State.packer_setPacker_ne {n m : Unit8} (p : Packer) (h : n ≠ m) : (s.setPacker n p).packer m = s.packer m := by
  have h' : (n : Nat) ≠ m := fun e => h (Fin.ext e)
  simp [State.packer, State.setPacker, h']

@[simp] theorem State.port_setChan (n m : Unit8) (c : Channel) : (s.setChan n c).port m = s.port m := rfl
@[simp] theorem State.chan_setPort (n m : Unit8) (p : Port) : (s.setPort n p).chan m = s.chan m := rfl
@[simp] theorem State.chan_setPacker (n m : Unit8) (p : Packer) : (s.setPacker n p).chan m = s.chan m := rfl
@[simp] theorem State.port_setPacker (n m : Unit8) (p : Packer) : (s.setPacker n p).port m = s.port m := rfl
@[simp] theorem State.packer_setChan (n m : Unit8) (c : Channel) : (s.setChan n c).packer m = s.packer m := rfl
@[simp] theorem State.packer_setPort (n m : Unit8) (p : Port) : (s.setPort n p).packer m = s.packer m := rfl

/-- An update of POSU, CAPU, ITAB, FSTO, LNK, FWD or RNU leaves the units as they are. -/
@[simp] theorem State.chan_setFsto (n : Unit8) (f : Fsto) : (s.setFsto f).chan n = s.chan n := rfl
@[simp] theorem State.chan_setItab (n : Unit8) (t : Itab) : (s.setItab t).chan n = s.chan n := rfl
@[simp] theorem State.chan_setRnu (n : Unit8) (r : Rnu) : (s.setRnu r).chan n = s.chan n := rfl
@[simp] theorem State.chan_setFwd (n : Unit8) (f : Fwd) : (s.setFwd f).chan n = s.chan n := rfl
@[simp] theorem State.chan_setPosu (n : Unit8) (p : Posu) : (s.setPosu p).chan n = s.chan n := rfl
@[simp] theorem State.port_setFsto (n : Unit8) (f : Fsto) : (s.setFsto f).port n = s.port n := rfl
@[simp] theorem State.port_setItab (n : Unit8) (t : Itab) : (s.setItab t).port n = s.port n := rfl
@[simp] theorem State.port_setRnu (n : Unit8) (r : Rnu) : (s.setRnu r).port n = s.port n := rfl
@[simp] theorem State.port_setFwd (n : Unit8) (f : Fwd) : (s.setFwd f).port n = s.port n := rfl
@[simp] theorem State.port_setPosu (n : Unit8) (p : Posu) : (s.setPosu p).port n = s.port n := rfl

/-- Emptying the response buffer changes nothing that a command reads. -/
@[simp] theorem inReset_setRnu (r : Rnu) : inReset (s.setRnu r) = inReset s := rfl

end Sys2Proof.Machine
end

