-- ==== Sys2Proof/Laws/Order.lean ====
section
/-! SUPPORT. Free orders: an arrangement has the members it was given, and what each member keeps, all of them keep in
every order. -/

namespace Sys2Proof.Machine

/-- A member put in adds itself alone. -/
theorem putAt_perm {α : Type} (x : α) (i : Nat) (l : List α) : (putAt x i l).Perm (x :: l) := by
  induction i generalizing l with
  | zero => exact List.Perm.refl _
  | succ i ih =>
    cases l with
    | nil => exact List.Perm.refl _
    | cons y t => exact ((ih t).cons y).trans (List.Perm.swap x y t)

/-- An arrangement is a permutation, whatever the free order chooses. -/
theorem arrange_perm {α : Type} (k : Nat) (l : List α) : (arrange k l).Perm l := by
  induction l generalizing k with
  | nil => exact List.Perm.refl _
  | cons x t ih =>
    cases t with
    | nil => exact List.Perm.refl _
    | cons y u =>
      unfold arrange
      exact (putAt_perm x _ _).trans ((ih (k + 1)).cons x)

/-- No member: nothing is done. -/
@[simp] theorem forEachFree_nil {α : Type} (f : α → State → State) (s : State) : forEachFree [] f s = s := rfl

/-- One member: it is done, and no order is chosen. -/
@[simp] theorem forEachFree_singleton {α : Type} (x : α) (f : α → State → State) (s : State) :
    forEachFree [x] f s = f x s := rfl

/-- A relation that is reflexive and transitive, holds of a choice of order, and holds of `f` for each member of a list,
holds of `f` done for all of them. -/
theorem forEachFree_rel {α : Type} {R : State → State → Prop} (refl : ∀ s, R s s)
    (trans : ∀ {a b c}, R a b → R b c → R a c) (choose : ∀ s k, R s (s.choseOrder k)) {l : List α}
    {f : α → State → State} (h : ∀ x ∈ l, ∀ s, R s (f x s)) (s : State) : R s (forEachFree l f s) := by
  have fold : ∀ (m : List α), (∀ x ∈ m, x ∈ l) → ∀ s, R s (m.foldl (fun s x => f x s) s) := by
    intro m
    induction m with
    | nil => exact fun _ s => refl s
    | cons x t ih =>
      intro hm s
      exact trans (h x (hm x List.mem_cons_self) s) (ih (fun y hy => hm y (List.mem_cons_of_mem _ hy)) (f x s))
  exact trans (choose s _) (fold _ (fun x hx => (arrange_perm _ l).mem_iff.1 hx) _)

/-- The same of a list taken in its own order. -/
theorem foldl_rel {α : Type} {R : State → State → Prop} (refl : ∀ s, R s s)
    (trans : ∀ {a b c}, R a b → R b c → R a c) {f : State → α → State} (l : List α)
    (h : ∀ x ∈ l, ∀ s, R s (f s x)) (s : State) : R s (l.foldl f s) := by
  induction l generalizing s with
  | nil => exact refl s
  | cons x t ih =>
    exact trans (h x List.mem_cons_self s) (ih (fun y hy => h y (List.mem_cons_of_mem _ hy)) (f s x))

end Sys2Proof.Machine
end

