-- ==== Sys2Proof/Laws/Calm.lean ====
section
/-! SUPPORT. What the operations of the line side, of the ports and of the store can touch. Each keeps POSU, CAPU, LNK, the
credit, lanes and policies of FWD, and all of RNU but its views (`still`); each keeps the item numbers and all of ITAB but
its records, and the eject timer (`table`); and each keeps the bounds of `Sound`. One lemma for each operation. -/

namespace Sys2Proof.Machine

/-- What no event of an item, a channel, a port or a record touches. -/
def State.still (s : State) :=
  (s.pending, s.stamp, s.hold, s.pins, s.posu, s.capu, s.lnk, s.fwd.credit, s.fwd.fullLane, s.fwd.previewLane,
    s.fwd.fullRun, s.fwd.autoFull, s.fwd.holdRejected, s.fwd.reserved, s.rnu.response, s.rnu.shifted, s.rnu.transaction,
    s.rnu.lineMask, s.rnu.officeMask)

/-- What no event of a channel, a port or a record touches beside: the table but for its records, and the eject timer. -/
def State.table (s : State) := ({ s.itab with items := [] }, s.itab.items.map (·.number), s.trgu.eject)

/-- A view holds flags of its own alone (R194). -/
def viewsOk (r : Rnu) : Prop := r.lineView &&& ~~~lineFlags = 0 ∧ r.officeView &&& ~~~officeFlags = 0

/-- The control queue has its places, the store's bytes their form, and the views their flags. -/
def State.Sound (s : State) : Prop := occupancy s.fwd ≤ 32 ∧ memWf s.fsto.mem = true ∧ viewsOk s.rnu

/-- From `s` to `t` nothing of `still` and of `table` changes, and `Sound` is kept. -/
structure Calm (s t : State) : Prop where
  still : t.still = s.still
  table : t.table = s.table
  sound : s.Sound → t.Sound

theorem Calm.refl (s : State) : Calm s s := ⟨rfl, rfl, id⟩

theorem Calm.trans {a b c : State} (h : Calm a b) (k : Calm b c) : Calm a c :=
  ⟨k.still.trans h.still, k.table.trans h.table, fun x => k.sound (h.sound x)⟩

/-- `Calm.trans` read from the last operation back. -/
theorem Calm.before {a b c : State} (k : Calm b c) (h : Calm a b) : Calm a c := h.trans k

/-- A free order of calm steps is calm. -/
theorem forEachFree_calm {α : Type} {l : List α} {f : α → State → State} (h : ∀ x ∈ l, ∀ s, Calm s (f x s)) (s : State) :
    Calm s (forEachFree l f s) :=
  forEachFree_rel Calm.refl Calm.trans (fun _ _ => ⟨rfl, rfl, id⟩) h s

/-- A list of calm steps is calm. -/
theorem foldl_calm {α : Type} {f : State → α → State} (l : List α) (h : ∀ x ∈ l, ∀ s, Calm s (f s x)) (s : State) :
    Calm s (l.foldl f s) :=
  foldl_rel Calm.refl Calm.trans l h s

/-! ## Parts -/

theorem setChan_calm (n : Unit8) (c : Channel) (s : State) : Calm s (s.setChan n c) := ⟨rfl, rfl, id⟩
theorem setPort_calm (n : Unit8) (p : Port) (s : State) : Calm s (s.setPort n p) := ⟨rfl, rfl, id⟩
theorem setPacker_calm (n : Unit8) (p : Packer) (s : State) : Calm s (s.setPacker n p) := ⟨rfl, rfl, id⟩
theorem setSlot_calm (i : Fin 512) (sl : Slot) (s : State) : Calm s (s.setSlot i sl) := ⟨rfl, rfl, id⟩
theorem modChan_calm (n : Unit8) (f : Channel → Channel) (s : State) : Calm s (modChan n f s) := setChan_calm _ _ _
theorem modPort_calm (n : Unit8) (f : Port → Port) (s : State) : Calm s (modPort n f s) := setPort_calm _ _ _
theorem countPort_calm (n : Unit8) (f : PortCounters → PortCounters) (s : State) : Calm s (countPort n f s) :=
  modPort_calm _ _ _

/-- FSTO changed with its bytes as they were. -/
theorem setFsto_calm {f : Fsto} {s : State} (h : f.mem = s.fsto.mem) : Calm s (s.setFsto f) :=
  ⟨rfl, rfl, fun ⟨a, b, c⟩ => ⟨a, by rw [State.setFsto_fsto, h]; exact b, c⟩⟩

/-- Bytes written into the store. -/
theorem writeRun_calm (blocks : List Block) (off : Nat) (bs : List Byte) (s : State) :
    Calm s (s.setFsto { s.fsto with mem := writeRun blocks off bs s.fsto.mem }) :=
  ⟨rfl, rfl, fun ⟨a, b, c⟩ => ⟨a, memWf_writeRun _ _ _ b, c⟩⟩

/-- FWD's pull queue, preview queue and counters changed. -/
theorem setFwd_calm {f : Fwd} {s : State}
    (h : (f.control, f.reserved, f.credit, f.fullLane, f.previewLane, f.fullRun, f.autoFull, f.holdRejected) =
      (s.fwd.control, s.fwd.reserved, s.fwd.credit, s.fwd.fullLane, s.fwd.previewLane, s.fwd.fullRun, s.fwd.autoFull,
        s.fwd.holdRejected)) : Calm s (s.setFwd f) := by
  simp only [Prod.mk.injEq] at h
  obtain ⟨h1, h2, h3, h4, h5, h6, h7, h8⟩ := h
  refine ⟨by simp [State.still, h2, h3, h4, h5, h6, h7, h8], rfl, fun ⟨a, b, c⟩ => ⟨?_, b, c⟩⟩
  simpa [occupancy, h1, h2] using a

theorem modRecord_calm (h : Handle) (f : FrameRecord → FrameRecord) (s : State) : Calm s (modRecord h f s) := by
  unfold modRecord
  split
  · exact Calm.refl _
  · exact setSlot_calm _ _ _

/-- Item records changed with their numbers as they were. -/
theorem modItem_calm (n : Nat) {f : Item → Item} (h : ∀ it, (f it).number = it.number) (s : State) :
    Calm s (modItem n f s) := by
  refine ⟨rfl, ?_, id⟩
  have : (s.itab.items.map fun it => if it.number = n then f it else it).map (·.number) =
      s.itab.items.map (·.number) := by
    rw [List.map_map]
    refine List.map_congr_left fun it _ => ?_
    dsimp only [Function.comp]
    split
    · exact h it
    · rfl
  simp [State.table, modItem, this]

/-! ## Notices and messages -/

theorem viewsOk_line {r : Rnu} {n : Notice} (h : viewsOk r) (hn : n.bit &&& ~~~lineFlags = 0) :
    viewsOk { r with lineView := r.lineView ||| n.bit } :=
  ⟨by
    show (r.lineView ||| n.bit) &&& ~~~lineFlags = 0
    have h1 := h.1
    unfold lineFlags at *
    generalize r.lineView = v at *
    generalize n.bit = b at *
    ext i hi
    have e1 := congrArg (fun x : BitVec 32 => x[i]) h1
    have e2 := congrArg (fun x : BitVec 32 => x[i]) hn
    simp at e1 e2 ⊢
    rcases hv : v[i] <;> rcases hb : b[i] <;> simp_all, h.2⟩

theorem viewsOk_office {r : Rnu} {n : Notice} (h : viewsOk r) (hn : n.bit &&& ~~~officeFlags = 0) :
    viewsOk { r with officeView := r.officeView ||| n.bit } :=
  ⟨h.1, by
    show (r.officeView ||| n.bit) &&& ~~~officeFlags = 0
    have h1 := h.2
    unfold officeFlags at *
    generalize r.officeView = v at *
    generalize n.bit = b at *
    ext i hi
    have e1 := congrArg (fun x : BitVec 32 => x[i]) h1
    have e2 := congrArg (fun x : BitVec 32 => x[i]) hn
    simp at e1 e2 ⊢
    rcases hv : v[i] <;> rcases hb : b[i] <;> simp_all⟩

theorem setLine_calm {n : Notice} (hn : n.bit &&& ~~~lineFlags = 0) (s : State) : Calm s (setLine n s) :=
  ⟨rfl, rfl, fun ⟨a, b, c⟩ => ⟨a, b, viewsOk_line c hn⟩⟩

theorem joinOffice_calm {n : Notice} (hn : n.bit &&& ~~~officeFlags = 0) (s : State) : Calm s (s.joinOffice n) :=
  ⟨rfl, rfl, fun ⟨a, b, c⟩ => ⟨a, b, viewsOk_office c hn⟩⟩

theorem countDropped_calm (s : State) : Calm s s.countDropped := setFwd_calm rfl

/-- A message that finds room joins the queue within its places. -/
theorem pushControl_calm {s : State} (h : messageRoom s = true) (e : ControlEntry) : Calm s (s.pushControl e) := by
  refine ⟨rfl, rfl, fun ⟨_, b, c⟩ => ⟨?_, b, c⟩⟩
  have : occupancy s.fwd < 32 := by
    unfold messageRoom at h
    simp only [Bool.and_eq_true, decide_eq_true_eq] at h
    exact h.2
  show (s.fwd.control ++ [e]).length + (if s.fwd.reserved then 1 else 0) ≤ 32
  rw [List.length_append, List.length_singleton]
  unfold occupancy at this
  omega

theorem offerNotice_calm (s : State) : Calm s (offerNotice s) := by
  unfold offerNotice
  split
  · rename_i h; exact pushControl_calm h _
  · exact (countDropped_calm s).trans (joinOffice_calm (by decide) _)

theorem callOffice_calm (r : Rnu) (s : State) : Calm s (callOffice r s) := by
  unfold callOffice
  split
  · exact offerNotice_calm s
  · exact Calm.refl _

theorem setOffice_calm {n : Notice} (hn : n.bit &&& ~~~officeFlags = 0) (s : State) : Calm s (setOffice n s) :=
  (joinOffice_calm hn s).trans (callOffice_calm _ _)

theorem setBoth_calm {n : Notice} (hl : n.bit &&& ~~~lineFlags = 0) (ho : n.bit &&& ~~~officeFlags = 0) (s : State) :
    Calm s (setBoth n s) :=
  (setLine_calm hl s).trans (setOffice_calm ho _)

theorem queueMessage_calm (type : Byte) (body : List Byte) (s : State) : Calm s (queueMessage type body s) := by
  unfold queueMessage
  split
  · rename_i h; exact pushControl_calm h _
  · exact (countDropped_calm s).trans (setOffice_calm (by decide) _)

/-! ## Reports -/

/-- A report changes an item's entry and flags, not its number. -/
theorem apply_number (it : Item) (ch : Unit8) (r : Report) : (it.apply ch r).number = it.number := by
  unfold Item.apply
  split <;> rfl

theorem completeIfSettled_calm (n : Nat) (s : State) : Calm s (completeIfSettled n s) := by
  unfold completeIfSettled
  split
  · exact Calm.refl _
  · split
    · exact Calm.before (queueMessage_calm _ _ _) (modItem_calm n (f := fun i => { i with state := .complete }) (fun _ => rfl) s)
    · exact Calm.refl _

theorem report_calm (n : Nat) (ch : Unit8) (r : Report) (s : State) : Calm s (report n ch r s) :=
  (modItem_calm n (fun it => apply_number it ch r) s).trans (completeIfSettled_calm _ _)

theorem reportAtCreation_calm (n : Nat) (ch : Unit8) (r : Report) (s : State) : Calm s (reportAtCreation n ch r s) :=
  modItem_calm n (fun it => apply_number it ch r) s

/-! ## Store -/

theorem freeRecord_calm (h : Handle) (s : State) : Calm s (freeRecord h s) := by
  unfold freeRecord
  split
  · exact Calm.refl _
  · exact ⟨rfl, rfl, id⟩

theorem evict_calm (h : Handle) (s : State) : Calm s (evict h s) := by
  unfold evict
  extract_lets s1
  exact Calm.before (setFsto_calm rfl) (freeRecord_calm h s)

theorem evictUntil_calm (n : Nat) (l : List Handle) (s : State) : Calm s (evictUntil n l s) := by
  induction l generalizing s with
  | nil => exact Calm.refl _
  | cons h t ih =>
    unfold evictUntil
    split
    · exact Calm.refl _
    · split
      · exact (evict_calm h s).trans (ih _)
      · exact ih s

theorem takeBlocks_calm (k : Nat) (s : State) : Calm s (takeBlocks k s).2 := by
  unfold takeBlocks
  dsimp only
  split
  · exact Calm.before (setBoth_calm (by decide) (by decide) _) (setFsto_calm rfl)
  · exact setFsto_calm rfl

theorem roomRequest_calm (h : Handle) (full preview : Bool) (s : State) : Calm s (roomRequest h full preview s).2 := by
  unfold roomRequest
  extract_lets n s1
  have h1 : Calm s s1 := evictUntil_calm _ _ s
  by_cases hn : n ≤ s1.fsto.pool.length
  · rw [if_pos hn]
    exact Calm.before (modRecord_calm _ _ _) (Calm.before (takeBlocks_calm _ _) h1)
  · rw [if_neg hn]
    exact Calm.before (setFsto_calm rfl) h1

theorem placeRecord_calm (i : Fin 512) (n : Unit8) (item : Nat) (pos : Pos) (filling : Bool) (s : State) :
    Calm s (placeRecord i n item pos filling s).2 := setSlot_calm _ _ _

theorem allocRecord_calm (n : Unit8) (item : Nat) (pos : Pos) (filling : Bool) (s : State) :
    Calm s (allocRecord n item pos filling s).2 := by
  unfold allocRecord
  split
  · exact placeRecord_calm _ _ _ _ _ _
  · split
    · exact (evict_calm _ s).trans (placeRecord_calm _ _ _ _ _ _)
    · exact Calm.before (setBoth_calm (by decide) (by decide) _) (setFsto_calm rfl)

theorem joinPull_calm (h : Handle) (s : State) : Calm s (joinPull h s) := by
  unfold joinPull
  exact Calm.before (modRecord_calm _ _ _) (setFwd_calm rfl)

theorem applyAutoFull_calm (atEnd : Bool) (h : Handle) (s : State) : Calm s (applyAutoFull atEnd h s) := by
  unfold applyAutoFull
  split
  · split
    · exact joinPull_calm h s
    · exact Calm.before (setOffice_calm (by decide) _) (setFwd_calm rfl)
  · exact Calm.refl _

theorem settlePreview_calm (h : Handle) (s : State) : Calm s (settlePreview h s) := by
  unfold settlePreview
  split
  · exact Calm.refl _
  · split
    · exact Calm.before (modRecord_calm _ _ _) (setFwd_calm rfl)
    · exact modRecord_calm _ _ _

theorem handOverPull_calm (h : Handle) (s : State) : Calm s (handOverPull h s) := by
  unfold handOverPull
  split
  · exact Calm.refl _
  · split
    · exact joinPull_calm h s
    · exact Calm.refl _

theorem reportEnd_calm (h : Handle) (s : State) : Calm s (reportEnd h s) := by
  unfold reportEnd
  split
  · exact Calm.refl _
  · split
    · exact report_calm _ _ _ _
    · exact Calm.refl _

theorem endRecord_calm (h : Handle) (final : RecordState) (s : State) : Calm s (endRecord h final s) := by
  unfold endRecord
  split
  · exact Calm.refl _
  · extract_lets s1 _ s2
    have h1 : Calm s s1 := modRecord_calm _ _ s
    have h2 : Calm s1 s2 := setFsto_calm rfl
    clear_value s2
    exact Calm.before (applyAutoFull_calm _ _ _) (Calm.before (handOverPull_calm _ _)
      (Calm.before (settlePreview_calm _ _) (Calm.before (reportEnd_calm _ _) (h1.trans h2))))

theorem writeCopies_calm (item : Nat) (c : VerdictCopy) (src : VerdictSource) (hold : Bool) (s : State) :
    Calm s (writeCopies item c src hold s) := setFsto_calm rfl

/-! ## Frames -/

theorem settleChannel_calm (n : Unit8) (s : State) : Calm s (settleChannel n s) := by
  unfold settleChannel
  dsimp only
  split
  · exact setChan_calm _ _ _
  · exact Calm.refl _

theorem beginContext_calm (n : Unit8) (h : Handle) (s : State) : Calm s (beginContext n h s) := by
  unfold beginContext
  split
  · exact Calm.refl _
  · exact setPacker_calm _ _ _

theorem writePreviewLine_calm (n : Unit8) (ctx : FrameContext) (s : State) : Calm s (writePreviewLine n ctx s) := by
  unfold writePreviewLine
  split
  · exact Calm.refl _
  · exact (writeRun_calm _ _ _ s).trans (modRecord_calm _ _ _)

theorem endContext_calm (n : Unit8) (s : State) : Calm s (endContext n s) := by
  unfold endContext
  split
  · exact Calm.refl _
  · dsimp only
    split
    · exact (writePreviewLine_calm _ _ s).trans (setPacker_calm _ _ _)
    · exact setPacker_calm _ _ _

theorem accumulate_calm (n : Unit8) (f : Format) (values : List Nat) (s : State) : Calm s (accumulate n f values s) := by
  unfold accumulate
  split
  · exact Calm.refl _
  · split
    · exact Calm.refl _
    · dsimp only
      split
      · exact setPacker_calm _ _ _
      · exact (writePreviewLine_calm _ _ s).trans (setPacker_calm _ _ _)

theorem endFrame_calm (n : Unit8) (final : RecordState) (mark : FrameFlags → FrameFlags) (s : State) :
    Calm s (endFrame n final mark s) := by
  unfold endFrame
  split
  · exact Calm.refl _
  · extract_lets s1 s2 s3
    have h2 : Calm s s2 := Calm.before (modPort_calm _ _ _) (Calm.before (modRecord_calm _ _ _) (endContext_calm n s))
    clear_value s2
    have h3 : Calm s2 s3 := by
      change Calm s2 (if _ then _ else _)
      split
      · exact setBoth_calm (by decide) (by decide) _
      · exact Calm.refl _
    exact Calm.before (endRecord_calm _ _ _) (h2.trans h3)

theorem truncateFrame_calm (n : Unit8) (r : TruncReason) (s : State) : Calm s (truncateFrame n r s) :=
  (endFrame_calm _ _ _ s).trans (countPort_calm _ _ _)

theorem completeFrame_calm (n : Unit8) (mark : FrameFlags → FrameFlags) (s : State) : Calm s (completeFrame n mark s) :=
  (endFrame_calm _ _ _ s).trans (countPort_calm _ _ _)

theorem faultTest_calm (n : Unit8) (h : Handle) (s : State) : Calm s (faultTest n h s) := by
  unfold faultTest
  split
  · exact Calm.refl _
  · rename_i r _
    extract_lets c s1 s2
    split
    · have h1 : Calm s s1 := modRecord_calm _ _ s
      clear_value s1
      have h2 : Calm s1 s2 := by
        change Calm s1 (if _ then _ else _)
        split
        · exact report_calm _ _ _ _
        · exact Calm.refl _
      split
      · exact Calm.before (setBoth_calm (by decide) (by decide) _) (h1.trans h2)
      · exact h1.trans h2
    · exact Calm.refl _

theorem storeLine_calm (n : Unit8) (h : Handle) (line : ConvertedLine) (s : State) : Calm s (storeLine n h line s) := by
  unfold storeLine
  split
  · exact Calm.refl _
  · exact (writeRun_calm _ _ _ s).trans ((modRecord_calm _ _ _).trans ((faultTest_calm _ _ _).trans
      ((accumulate_calm _ _ _ _).trans (modRecord_calm _ _ _))))

theorem offerLine_calm (n : Unit8) (samples : List Nat) (s : State) : Calm s (offerLine n samples s).2 := by
  unfold offerLine
  split
  · exact Calm.refl _
  · split
    · exact Calm.refl _
    · extract_lets s1 line
      have h1 : Calm s s1 := by
        change Calm s (if _ then _ else _)
        split
        · exact Calm.refl _
        · exact modRecord_calm _ _ s
      clear_value s1
      dsimp only
      split
      · exact (h1.trans (roomRequest_calm _ _ _ _)).trans (storeLine_calm n _ _ _)
      · dsimp only
        exact Calm.before (modPort_calm _ _ _) (Calm.before (truncateFrame_calm _ _ _)
          (h1.trans (roomRequest_calm _ _ _ _)))

/-! ## Channels -/

theorem startPulse_calm (n : Unit8) (s : State) : Calm s (startPulse n s) := modChan_calm _ _ _
theorem loadShadow_calm (n : Unit8) (s : State) : Calm s (loadShadow n s) := modChan_calm _ _ _
theorem countSkip_calm (n : Unit8) (s : State) : Calm s (countSkip n s) := modChan_calm _ _ _
theorem armPort_calm (n : Unit8) (h : Handle) (s : State) : Calm s (armPort n h s) := modPort_calm _ _ _
theorem fireArea_calm (n : Unit8) (h : Handle) (s : State) : Calm s (fireArea n h s) :=
  (loadShadow_calm n s).trans ((startPulse_calm n _).trans (armPort_calm n h _))

theorem requestShot_calm (n : Unit8) (item : Nat) (pos : Pos) (filling : Bool) (s : State) :
    Calm s (requestShot n item pos filling s).2 := by
  unfold requestShot
  split
  · exact Calm.refl _
  · have h := allocRecord_calm n item pos filling s
    revert h
    generalize allocRecord n item pos filling s = p
    obtain ⟨o, t⟩ := p
    cases o <;> exact id

theorem missShot_calm (n : Unit8) (item : Nat) (r : MissReason) (s : State) : Calm s (missShot n item r s) :=
  (report_calm _ _ _ s).trans ((countSkip_calm _ _).trans (setBoth_calm (by decide) (by decide) _))

theorem takeAreaShot_calm (n : Unit8) (item : Nat) (pos : Pos) (s : State) : Calm s (takeAreaShot n item pos s) := by
  have h := requestShot_calm n item pos false s
  unfold takeAreaShot
  revert h
  generalize requestShot n item pos false s = p
  obtain ⟨o, t⟩ := p
  intro h
  cases o with
  | error r => exact h.trans (missShot_calm _ _ _ _)
  | ok k => exact h.trans ((fireArea_calm _ _ _).trans (report_calm _ _ _ _))

theorem takeOpen_calm (n : Unit8) (item : Nat) (pos : Pos) (s : State) : Calm s (takeOpen n item pos s) := by
  have h := requestShot_calm n item pos true s
  unfold takeOpen
  revert h
  generalize requestShot n item pos true s = p
  obtain ⟨o, t⟩ := p
  intro h
  cases o with
  | error r => exact h.trans ((modChan_calm _ _ _).trans (missShot_calm _ _ _ _))
  | ok k =>
    exact h.trans ((loadShadow_calm _ _).trans ((modPort_calm _ _ _).trans ((beginContext_calm _ _ _).trans
      ((report_calm _ _ _ _).trans (modChan_calm _ _ _)))))

theorem addMissing_calm (h : Handle) (s : State) : Calm s (addMissing h s) := modRecord_calm _ _ _

theorem takeLineTrigger_calm (n : Unit8) (p : Pos) (s : State) : Calm s (takeLineTrigger n p s) := by
  unfold takeLineTrigger
  split
  · exact Calm.refl _
  · dsimp only
    split <;> first
      | exact Calm.refl _
      | (split
         · split
           · exact (addMissing_calm _ s).trans ((modChan_calm _ _ _).trans (startPulse_calm _ _))
           · exact (modChan_calm _ _ _).trans (startPulse_calm _ _)
         · exact Calm.refl _)

theorem takeClose_calm (n : Unit8) (s : State) : Calm s (takeClose n s) := by
  unfold takeClose
  split
  · exact Calm.refl _
  · rename_i w _
    dsimp only
    have h1 : Calm s (if w.outstanding = true then addMissing w.handle s else s) := by
      split
      · exact addMissing_calm _ s
      · exact Calm.refl _
    refine h1.trans ?_
    generalize (if w.outstanding = true then addMissing w.handle s else s) = s1
    have h2 : Calm s1 (if (decide ((s1.port n).current = some w.handle) && isFilling s1 w.handle) = true then
        completeFrame n id s1 else s1) := by
      split
      · exact completeFrame_calm _ _ _
      · exact Calm.refl _
    exact h2.trans ((modPort_calm _ _ _).trans ((modChan_calm _ _ _).trans (settleChannel_calm _ _)))

theorem takeLooseTarget_calm (n : Unit8) (p : Pos) (s : State) : Calm s (takeLooseTarget n p s) := by
  unfold takeLooseTarget
  split
  · exact Calm.refl _
  · split
    · extract_lets left s1 s2
      have h1 : Calm s s1 := modChan_calm _ _ s
      clear_value s1
      have h2 : Calm s1 s2 := by
        change Calm s1 (if _ then _ else _)
        split
        · exact countSkip_calm _ _
        · have h := requestShot_calm n 0 p false s1
          revert h
          generalize requestShot n 0 p false s1 = q
          obtain ⟨o, u⟩ := q
          intro h
          cases o with
          | error r => exact h.trans (countSkip_calm _ _)
          | ok k => exact h.trans (fireArea_calm _ _ _)
      clear_value s2
      refine Calm.before (settleChannel_calm _ _) ((h1.trans h2).trans ?_)
      split
      · exact modChan_calm _ _ _
      · exact Calm.refl _
    · exact Calm.refl _

theorem queueEntry_calm (n : Unit8) (e : ShotEntry) (s : State) : Calm s (queueEntry n e s) := modChan_calm _ _ _

theorem missSchedule_calm (n : Unit8) (item : Nat) (r : MissReason) (s : State) : Calm s (missSchedule n item r s) :=
  (reportAtCreation_calm _ _ _ s).trans ((countSkip_calm _ _).trans (setBoth_calm (by decide) (by decide) _))

theorem scheduleShot_calm (n : Unit8) (item : Nat) (pos : Pos) (kind : ShotKind) (s : State) :
    Calm s (scheduleShot n item pos kind s) := by
  unfold scheduleShot
  split
  · exact missSchedule_calm _ _ _ _
  · generalize (if kind = .areaShot then 16 else 15) = k
    split
    · exact missSchedule_calm _ _ _ _
    · exact queueEntry_calm _ _ _

theorem queueCloseIfOpen_calm (n : Unit8) (item : Nat) (pos : Pos) (s : State) :
    Calm s (scheduleClose.queueCloseIfOpen n item pos s) := by
  unfold scheduleClose.queueCloseIfOpen
  split
  · exact queueEntry_calm _ _ _
  · exact Calm.refl _

theorem scheduleClose_calm (n : Unit8) (item : Nat) (pos : Pos) (s : State) : Calm s (scheduleClose n item pos s) := by
  unfold scheduleClose
  split
  · split
    · split
      · exact takeClose_calm _ _
      · exact modChan_calm _ _ _
    · exact queueCloseIfOpen_calm _ _ _ _
  · exact queueCloseIfOpen_calm _ _ _ _

theorem dropEntries_calm (item : Nat) (n : Unit8) (s : State) : Calm s (dropEntries item n s) :=
  (modChan_calm _ _ s).trans (settleChannel_calm _ _)

theorem leaveQueues_calm (item : Nat) (s : State) : Calm s (leaveQueues item s) := by
  unfold leaveQueues
  exact (foldl_calm units (fun n _ s => dropEntries_calm item n s) s).trans
    (forEachFree_calm (fun n _ s => takeClose_calm n s) _)

theorem takeEntry_calm (n : Unit8) (e : ShotEntry) (s : State) : Calm s (takeEntry n e s) := by
  unfold takeEntry
  split
  · exact takeAreaShot_calm _ _ _ _
  · exact takeOpen_calm _ _ _ _
  · exact takeClose_calm _ _

theorem takeHeads_calm (n : Unit8) (p : Pos) (k : Nat) (s : State) : Calm s (takeHeads n p k s) := by
  induction k generalizing s with
  | zero => exact Calm.refl _
  | succ k ih =>
    unfold takeHeads
    split
    · exact Calm.refl _
    · split
      · exact (modChan_calm _ _ s).trans ((takeEntry_calm _ _ _).trans (ih _))
      · exact Calm.refl _

theorem reachChannel_calm (n : Unit8) (p : Pos) (s : State) : Calm s (reachChannel n p s) := by
  unfold reachChannel
  have h1 : Calm s (if heldCloseAt (s.chan n) p = true then takeClose n s else s) := by
    split
    · exact takeClose_calm _ _
    · exact Calm.refl _
  exact h1.trans ((takeHeads_calm _ _ _ _).trans ((takeLineTrigger_calm _ _ _).trans ((takeLooseTarget_calm _ _ _).trans
    (settleChannel_calm _ _))))

theorem softHalt_calm (n : Unit8) (s : State) : Calm s (softHalt n s) := by
  unfold softHalt
  dsimp only
  split
  · exact (setChan_calm _ _ s).trans (settleChannel_calm _ _)
  · exact Calm.refl _

theorem reportHalted_calm (n : Unit8) (l : List ShotEntry) (s : State) : Calm s (reportHalted n l s) := by
  induction l generalizing s with
  | nil => exact Calm.refl _
  | cons e t ih =>
    unfold reportHalted
    split
    · exact ih s
    · exact (countSkip_calm _ s).trans ((report_calm _ _ _ _).trans (ih _))

theorem cutFrame_calm (n : Unit8) (s : State) : Calm s (cutFrame n s) := by
  unfold cutFrame
  split
  · rename_i w _
    have h1 : Calm s (if (decide ((s.port n).current = some w.handle) && isFilling s w.handle) = true then
        truncateFrame n .halted s else s) := by
      split
      · exact truncateFrame_calm _ _ _
      · exact Calm.refl _
    exact h1.trans ((modChan_calm _ _ _).trans (modPort_calm _ _ _))
  · split <;> first
      | exact Calm.refl _
      | exact (truncateFrame_calm _ _ s).trans (modPort_calm _ _ _)

theorem hardHalt_calm (n : Unit8) (s : State) : Calm s (hardHalt n s) := by
  unfold hardHalt
  split
  · exact Calm.refl _
  · exact (modChan_calm _ _ s).trans ((reportHalted_calm _ _ _).trans ((modChan_calm _ _ _).trans
      ((cutFrame_calm _ _).trans (modChan_calm _ _ _))))

theorem stopHalt_calm (s : State) : Calm s (stopHalt s) := by
  unfold stopHalt
  refine foldl_calm units (fun n _ s => ?_) s
  split
  · exact Calm.refl _
  · exact softHalt_calm _ _

theorem untilHalt_calm (pos : Pos) (stamp : Stamp) (n : Unit8) (s : State) : Calm s (untilHalt pos stamp n s) := by
  unfold untilHalt
  refine (modChan_calm n (fun c => { c with untilMark := some (pos, stamp) }) s).trans ?_
  dsimp only
  split
  · exact hardHalt_calm _ _
  · exact softHalt_calm _ _

theorem untilEdge_calm (input : AuxInput) (pos : Pos) (stamp : Stamp) (s : State) :
    Calm s (untilEdge input pos stamp s) :=
  forEachFree_calm (fun n _ s => untilHalt_calm pos stamp n s) s

end Sys2Proof.Machine
end

