-- ==== Sys2Proof/Laws/Units.lean ====
section
/-! SUPPORT. What the operations of notices, messages, reports and the store leave as it is of the channels, the ports and the
packers, and what the end of a port's frame does there. -/

namespace Sys2Proof.Machine

/-- The channels with the eject timer, the ports and the packers. -/
def State.front (s : State) := (s.trgu, s.ports, s.packers)

theorem setLine_front (n : Notice) (s : State) : (setLine n s).front = s.front := rfl

theorem offerNotice_front (s : State) : (offerNotice s).front = s.front := by
  unfold offerNotice
  split <;> rfl

theorem setOffice_front (n : Notice) (s : State) : (setOffice n s).front = s.front := by
  unfold setOffice callOffice
  split
  · exact offerNotice_front _
  · rfl

/-- What a flag for OFFICE leaves of the LINE view. -/
theorem setOffice_lineView (n : Notice) (s : State) : (setOffice n s).rnu.lineView = s.rnu.lineView := by
  unfold setOffice callOffice
  split
  · unfold offerNotice
    split <;> rfl
  · rfl

/-- A flag in both views joins the LINE view. -/
theorem setBoth_lineView (n : Notice) (s : State) : (setBoth n s).rnu.lineView = s.rnu.lineView ||| n.bit :=
  setOffice_lineView _ _

/-- A flag for OFFICE joins its view, and at most MESSAGE_LOST beside it (R169, R197). -/
theorem setOffice_officeView (n : Notice) (s : State) : ∃ k : NoticeSet,
    (setOffice n s).rnu.officeView = s.rnu.officeView ||| n.bit ||| k ∧ (k = 0 ∨ k = 0x00010000) := by
  unfold setOffice callOffice
  split
  · unfold offerNotice
    split
    · exact ⟨0, by simp [State.pushControl, State.joinOffice, State.setFwd, State.setRnu], Or.inl rfl⟩
    · exact ⟨0x00010000, rfl, Or.inr rfl⟩
  · exact ⟨0, by simp [State.joinOffice, State.setRnu], Or.inl rfl⟩

theorem setBoth_front (n : Notice) (s : State) : (setBoth n s).front = s.front := setOffice_front _ _

theorem queueMessage_front (t : Byte) (b : List Byte) (s : State) : (queueMessage t b s).front = s.front := by
  unfold queueMessage
  split
  · rfl
  · exact setOffice_front _ _

theorem completeIfSettled_front (n : Nat) (s : State) : (completeIfSettled n s).front = s.front := by
  unfold completeIfSettled
  split
  · rfl
  · split
    · exact queueMessage_front _ _ _
    · rfl

theorem report_front (n : Nat) (ch : Unit8) (r : Report) (s : State) : (report n ch r s).front = s.front :=
  completeIfSettled_front _ _

theorem modRecord_front (h : Handle) (f : FrameRecord → FrameRecord) (s : State) : (modRecord h f s).front = s.front := by
  unfold modRecord
  split <;> rfl

theorem freeRecord_front (h : Handle) (s : State) : (freeRecord h s).front = s.front := by
  unfold freeRecord
  split <;> rfl

theorem evict_front (h : Handle) (s : State) : (evict h s).front = s.front := freeRecord_front h s

theorem evictUntil_front (n : Nat) (l : List Handle) (s : State) : (evictUntil n l s).front = s.front := by
  induction l generalizing s with
  | nil => rfl
  | cons h t ih =>
    unfold evictUntil
    split
    · rfl
    · split
      · rw [ih, evict_front]
      · exact ih s

theorem takeBlocks_front (k : Nat) (s : State) : (takeBlocks k s).2.front = s.front := by
  unfold takeBlocks
  dsimp only
  split
  · exact setBoth_front _ _
  · rfl

theorem roomRequest_front (h : Handle) (a b : Bool) (s : State) : (roomRequest h a b s).2.front = s.front := by
  unfold roomRequest
  extract_lets n s1
  have h1 : s1.front = s.front := evictUntil_front _ _ s
  by_cases hn : n ≤ s1.fsto.pool.length
  · rw [if_pos hn]
    exact (modRecord_front _ _ _).trans ((takeBlocks_front _ _).trans h1)
  · rw [if_neg hn]
    exact h1

theorem joinPull_front (h : Handle) (s : State) : (joinPull h s).front = s.front := modRecord_front _ _ _

theorem applyAutoFull_front (b : Bool) (h : Handle) (s : State) : (applyAutoFull b h s).front = s.front := by
  unfold applyAutoFull
  split
  · split
    · exact joinPull_front _ _
    · exact setOffice_front _ _
  · rfl

theorem settlePreview_front (h : Handle) (s : State) : (settlePreview h s).front = s.front := by
  unfold settlePreview
  split
  · rfl
  · split <;> exact modRecord_front _ _ _

theorem handOverPull_front (h : Handle) (s : State) : (handOverPull h s).front = s.front := by
  unfold handOverPull
  split
  · rfl
  · split
    · exact joinPull_front _ _
    · rfl

theorem reportEnd_front (h : Handle) (s : State) : (reportEnd h s).front = s.front := by
  unfold reportEnd
  split
  · rfl
  · split
    · exact report_front _ _ _ _
    · rfl

theorem endRecord_front (h : Handle) (f : RecordState) (s : State) : (endRecord h f s).front = s.front := by
  unfold endRecord
  split
  · rfl
  · exact (applyAutoFull_front _ _ _).trans ((handOverPull_front _ _).trans ((settlePreview_front _ _).trans
      ((reportEnd_front _ _).trans (modRecord_front _ _ _))))

theorem allocRecord_front (n : Unit8) (i : Nat) (p : Pos) (b : Bool) (s : State) :
    (allocRecord n i p b s).2.front = s.front := by
  unfold allocRecord
  split
  · rfl
  · split
    · exact evict_front _ _
    · exact setBoth_front _ _

/-! ## Frames: what the end of a port's frame leaves -/

/-- The channels with the eject timer, and the ports. -/
def State.sides (s : State) := (s.trgu, s.ports)

theorem sides_of_front {s t : State} (h : t.front = s.front) : t.sides = s.sides := by
  simp only [State.front, Prod.mk.injEq] at h
  simp only [State.sides, h.1, h.2.1]

theorem beginContext_sides (n : Unit8) (h : Handle) (s : State) : (beginContext n h s).sides = s.sides := by
  unfold beginContext
  split <;> rfl

theorem writePreviewLine_front (n : Unit8) (c : FrameContext) (s : State) :
    (writePreviewLine n c s).front = s.front := by
  unfold writePreviewLine
  split
  · rfl
  · exact modRecord_front _ _ _

theorem endContext_sides (n : Unit8) (s : State) : (endContext n s).sides = s.sides := by
  unfold endContext
  split
  · rfl
  · dsimp only
    split
    · exact sides_of_front (t := writePreviewLine n _ s) (writePreviewLine_front _ _ s)
    · rfl

theorem accumulate_sides (n : Unit8) (f : Format) (values : List Nat) (s : State) :
    (accumulate n f values s).sides = s.sides := by
  unfold accumulate
  split
  · rfl
  · split
    · rfl
    · dsimp only
      split
      · rfl
      · exact sides_of_front (t := writePreviewLine n _ s) (writePreviewLine_front _ _ s)

theorem faultTest_front (n : Unit8) (h : Handle) (s : State) : (faultTest n h s).front = s.front := by
  unfold faultTest
  split
  · rfl
  · extract_lets c s1 s2
    split
    · have h1 : s1.front = s.front := modRecord_front _ _ s
      clear_value s1
      have h2 : s2.front = s1.front := by
        change (if _ then _ else _ : State).front = _
        split
        · exact report_front _ _ _ _
        · rfl
      split
      · exact (setBoth_front _ _).trans (h2.trans h1)
      · exact h2.trans h1
    · rfl

theorem storeLine_sides (n : Unit8) (h : Handle) (line : ConvertedLine) (s : State) :
    (storeLine n h line s).sides = s.sides := by
  unfold storeLine
  split
  · rfl
  · exact (sides_of_front (modRecord_front _ _ _)).trans ((accumulate_sides _ _ _ _).trans
      (sides_of_front ((faultTest_front _ _ _).trans (modRecord_front _ _ _))))

/-- The end of a port's frame gives up the frame and cancels the window, and leaves the other ports and every channel. -/
theorem endFrame_sides (n : Unit8) (final : RecordState) (mark : FrameFlags → FrameFlags) (s : State) :
    (endFrame n final mark s).sides =
      match (s.port n).current with
      | none => s.sides
      | some _ => (s.setPort n { s.port n with current := none, windowEnd := none }).sides := by
  cases hc : (s.port n).current with
  | none => simp only [endFrame, hc]
  | some h =>
    simp -zeta only [endFrame, hc]
    extract_lets s1 s2 s3
    have h1 : s1.sides = s.sides := (sides_of_front (modRecord_front _ _ _)).trans (endContext_sides n s)
    have hp : s1.ports = s.ports := (Prod.mk.inj h1).2
    have h2 : s2.sides = (s.setPort n { s.port n with current := none, windowEnd := none }).sides := by
      change (s1.trgu, (s1.ports.set n { s1.ports[n] with current := none, windowEnd := none })) = _
      rw [(Prod.mk.inj h1).1, hp]
      rfl
    clear_value s2
    have h3 : s3.sides = s2.sides := by
      change (if _ then _ else _ : State).sides = _
      split
      · exact sides_of_front (setBoth_front _ _)
      · rfl
    exact (sides_of_front (endRecord_front _ _ _)).trans (h3.trans h2)

theorem endFrame_trgu (n : Unit8) (final : RecordState) (mark : FrameFlags → FrameFlags) (s : State) :
    (endFrame n final mark s).trgu = s.trgu := by
  have h := congrArg Prod.fst (endFrame_sides n final mark s)
  split at h <;> exact h

/-- The ports after the end of a frame that the port holds. -/
theorem endFrame_ports {n : Unit8} {s : State} {h : Handle} (hc : (s.port n).current = some h) (final : RecordState)
    (mark : FrameFlags → FrameFlags) :
    (endFrame n final mark s).ports = s.ports.set n { s.port n with current := none, windowEnd := none } := by
  have e := congrArg Prod.snd (endFrame_sides n final mark s)
  rw [hc] at e
  exact e

/-- A count of a port leaves the channels. -/
theorem countPort_trgu (n : Unit8) (f : PortCounters → PortCounters) (s : State) : (countPort n f s).trgu = s.trgu := rfl

theorem truncateFrame_trgu (n : Unit8) (r : TruncReason) (s : State) : (truncateFrame n r s).trgu = s.trgu := by
  rw [truncateFrame, countPort_trgu, endFrame_trgu]

theorem completeFrame_trgu (n : Unit8) (mark : FrameFlags → FrameFlags) (s : State) :
    (completeFrame n mark s).trgu = s.trgu := by
  rw [completeFrame, countPort_trgu, endFrame_trgu]

/-- A changed port read back, and another port. -/
theorem port_setPort (s : State) (n m : Unit8) (p : Port) : (s.setPort n p).port m = if n = m then p else s.port m := by
  simp only [State.setPort, State.port, Fin.getElem_fin, Vector.getElem_set, Fin.ext_iff]

/-- A changed channel read back, and another channel. -/
theorem chan_setChan (s : State) (n m : Unit8) (c : Channel) : (s.setChan n c).chan m = if n = m then c else s.chan m := by
  simp only [State.setChan, State.chan, Fin.getElem_fin, Vector.getElem_set, Fin.ext_iff]

/-- A port, a channel or a packer changed twice. -/
@[simp] theorem setPort_setPort (s : State) (n : Unit8) (p q : Port) : (s.setPort n p).setPort n q = s.setPort n q := by
  simp only [State.setPort, Vector.set_set]

@[simp] theorem setChan_setChan (s : State) (n : Unit8) (c d : Channel) :
    (s.setChan n c).setChan n d = s.setChan n d := by
  simp only [State.setChan, Vector.set_set]

@[simp] theorem setPacker_setPacker (s : State) (n : Unit8) (p q : Packer) :
    (s.setPacker n p).setPacker n q = s.setPacker n q := by
  simp only [State.setPacker, Vector.set_set]

/-- Another port's frame does not move this port. -/
theorem endFrame_port_other {n m : Unit8} (hm : m ≠ n) (final : RecordState) (mark : FrameFlags → FrameFlags)
    (s : State) : (endFrame n final mark s).port m = s.port m := by
  have e : (endFrame n final mark s).ports = _ := congrArg Prod.snd (endFrame_sides n final mark s)
  unfold State.port
  rw [e]
  split
  · rfl
  · exact (port_setPort s n m _).trans (if_neg fun x => hm x.symm)

end Sys2Proof.Machine
end

