-- ==== Sys2Proof/Laws/Channels.lean ====
section
/-! SUPPORT. What the halts of TRGU make of the channels (R67 to R71), one channel at a time. -/

namespace Sys2Proof.Machine

theorem chan_modChan (n m : Unit8) (f : Channel → Channel) (s : State) :
    (modChan n f s).chan m = if n = m then f (s.chan n) else s.chan m := chan_setChan _ _ _ _

theorem chan_modPort (n m : Unit8) (f : Port → Port) (s : State) : (modPort n f s).chan m = s.chan m := rfl

theorem chan_of_trgu {s t : State} (h : t.trgu = s.trgu) (m : Unit8) : t.chan m = s.chan m := by
  unfold State.chan
  rw [h]

theorem report_trgu (n : Nat) (ch : Unit8) (r : Report) (s : State) : (report n ch r s).trgu = s.trgu :=
  congrArg Prod.fst (report_front n ch r s)

/-- Entries that a hard halt removes are counted skipped, all but the window closes (R69 step 1). -/
theorem reportHalted_chan (n m : Unit8) (q : List ShotEntry) (s : State) :
    (reportHalted n q s).chan m =
      if n = m then { s.chan n with
        skipped := (s.chan n).skipped + BitVec.ofNat 32 (q.countP fun e => decide (e.kind ≠ .windowClose)) }
      else s.chan m := by
  induction q generalizing s with
  | nil =>
    simp only [reportHalted, List.countP_nil, BitVec.add_zero]
    split
    · rename_i h
      rw [h]
    · rfl
  | cons e t ih =>
    unfold reportHalted
    rw [ih]
    by_cases hk : e.kind = .windowClose
    · simp [hk]
    · rw [if_neg hk]
      have e1 : ∀ k, (report e.item n (.missed .halted) (countSkip n s)).chan k =
          if n = k then { s.chan n with skipped := (s.chan n).skipped + 1 } else s.chan k := by
        intro k
        rw [chan_of_trgu (report_trgu _ _ _ _)]
        exact chan_modChan _ _ _ _
      rw [e1, e1]
      by_cases h : n = m
      · simp only [h, if_true, ne_eq, hk, not_false_eq_true, decide_true, List.countP_cons_of_pos]
        rw [BitVec.add_assoc]
        congr 1
        apply BitVec.eq_of_toNat_eq
        simp
        omega
      · simp only [h, if_false]

/-- A frame cut short leaves of its channel all but the open window (R69 step 3). -/
theorem cutFrame_chan (n m : Unit8) (s : State) :
    (cutFrame n s).chan m = if n = m then { s.chan n with window := none } else s.chan m := by
  unfold cutFrame
  split
  · extract_lets s1
    have h1 : s1.trgu = s.trgu := by
      change (if _ then _ else _ : State).trgu = _
      split
      · exact truncateFrame_trgu _ _ _
      · rfl
    rw [chan_modPort, chan_modChan, chan_of_trgu h1, chan_of_trgu h1]
  · rename_i hw
    have h0 : s.chan m = if n = m then { s.chan n with window := none } else s.chan m := by
      split
      · rename_i h
        subst h
        rw [← hw]
      · rfl
    split
    · rw [chan_modPort, chan_of_trgu (truncateFrame_trgu _ _ _)]
      exact h0
    · rw [chan_modPort, chan_of_trgu (truncateFrame_trgu _ _ _)]
      exact h0
    all_goals exact h0

/-- A hard halt (R69): the channel is IDLE with plan OFF, and has no entry, target or window. -/
theorem hardHalt_chan (n m : Unit8) (s : State) : (hardHalt n s).chan m =
    if n = m ∧ (s.chan n).state ≠ .idle then { s.chan n with
      state := .idle, plan := .off, queue := [], freeRun := none, window := none
      skipped := (s.chan n).skipped +
        BitVec.ofNat 32 ((s.chan n).queue.countP fun e => decide (e.kind ≠ .windowClose)) }
    else s.chan m := by
  unfold hardHalt
  split
  · rename_i h
    simp [h]
  · rename_i h
    extract_lets q s1 s2
    rw [chan_modChan]
    have e1 : ∀ k, s1.chan k = if n = k then { s.chan n with
        queue := [], skipped := (s.chan n).skipped + BitVec.ofNat 32 (q.countP fun e => decide (e.kind ≠ .windowClose)) }
        else s.chan k := by
      intro k
      change (reportHalted _ _ _).chan k = _
      rw [reportHalted_chan, chan_modChan, chan_modChan]
      by_cases x : n = k <;> simp [x]
    have e2 : ∀ k, s2.chan k = if n = k then { s1.chan n with freeRun := none, window := none } else s1.chan k := by
      intro k
      change (cutFrame _ _).chan k = _
      rw [cutFrame_chan, chan_modChan, chan_modChan]
      by_cases x : n = k <;> simp [x]
    rw [e2, e2, e1, e1]
    by_cases x : n = m
    · subst x
      simp [h, q]
      exact ⟨rfl, rfl, rfl, rfl, rfl, rfl, rfl, rfl⟩
    · simp [x]

/-- A channel that settles changes nothing else (R71). -/
theorem settleChannel_rest (n : Unit8) (s : State) :
    let t := settleChannel n s
    t.itab = s.itab ∧ t.ports = s.ports ∧ t.packers = s.packers ∧ t.fsto = s.fsto ∧ t.fwd = s.fwd ∧ t.rnu = s.rnu ∧
      t.trgu.eject = s.trgu.eject := by
  unfold settleChannel
  dsimp only
  split <;> exact ⟨rfl, rfl, rfl, rfl, rfl, rfl, rfl⟩

/-- A channel that is soft-halted (R68, R71), with its port as it is. -/
def softHalted (p : Port) (c : Channel) : Channel :=
  if c.state = .running then
    if c.queue = [] ∧ c.window = none ∧ p.state.atRest = true then { c with state := .idle, plan := .off, freeRun := none }
    else { c with state := .halting, freeRun := if c.plan = .item then c.freeRun else none }
  else c

/-- A soft halt (R68). -/
theorem softHalt_chan (n m : Unit8) (s : State) :
    (softHalt n s).chan m = if n = m then softHalted (s.port n) (s.chan n) else s.chan m := by
  unfold softHalt softHalted
  dsimp only
  split
  · unfold settleChannel
    dsimp only
    have h0 : ∀ c, (s.setChan n c).port n = s.port n := fun _ => rfl
    simp only [chan_setChan, h0, if_true]
    by_cases x : n = m
    · subst x
      simp only [if_true]
      by_cases a : (s.chan n).queue = [] <;> by_cases b : (s.chan n).window = none <;>
        cases (s.port n).state.atRest <;> simp [a, b]
    · simp only [x, if_false]
      split <;> simp [chan_setChan, x]
  · split
    · rename_i h
      rw [h]
    · rfl

/-- A soft halt changes channels alone. -/
theorem softHalt_rest (n : Unit8) (s : State) :
    let t := softHalt n s
    t.itab = s.itab ∧ t.ports = s.ports ∧ t.packers = s.packers ∧ t.fsto = s.fsto ∧ t.fwd = s.fwd ∧ t.rnu = s.rnu ∧
      t.trgu.eject = s.trgu.eject := by
  unfold softHalt
  dsimp only
  split
  · exact settleChannel_rest _ _
  · exact ⟨rfl, rfl, rfl, rfl, rfl, rfl, rfl⟩

/-- An operation done once for each of several channels, which makes of its own channel what `F` says and leaves the others:
what each channel is then. `P` is what `F` needs to stay as it was. -/
theorem foldl_chan {g : Unit8 → State → State} {F : Unit8 → State → Channel} {l : List Unit8} (hl : l.Nodup)
    {P : State → State → Prop} (hP : ∀ n s, P s (g n s)) (hF : ∀ n s t, P s t → s.chan n = t.chan n → F n s = F n t)
    (hg : ∀ n m s, (g n s).chan m = if n = m then F n s else s.chan m) (s : State) (m : Unit8) :
    (l.foldl (fun s x => g x s) s).chan m = if m ∈ l then F m s else s.chan m := by
  induction l generalizing s with
  | nil => simp
  | cons a t ih =>
    rw [List.foldl_cons, ih (List.nodup_cons.1 hl).2]
    by_cases x : a = m
    · subst x
      simp [(List.nodup_cons.1 hl).1, hg]
    · have h : (g a s).chan m = s.chan m := by rw [hg, if_neg x]
      have e : F m (g a s) = F m s := (hF m s _ (hP a s) h.symm).symm
      rw [h]
      simp [e, Ne.symm x]

end Sys2Proof.Machine
end

