-- ==== Sys2Proof/Laws/Link.lean ====
section
/-! SUPPORT. What the loss of the link does to FWD and leaves of the rest (R183). -/

namespace Sys2Proof.Machine

/-- What the return of a transfer leaves as it is (R183 steps 3 and 4), of the parts of the state and of FWD. -/
def State.lossKept (s : State) :=
  (s.pending, s.stamp, s.hold, s.pins, s.posu, s.capu, s.itab, s.trgu, s.ports, s.packers, s.lnk, s.rnu, s.fsto.pool,
    s.fsto.age, s.fsto.mem, s.fwd.credit, s.fwd.control, s.fwd.reserved, s.fwd.autoFull, s.fwd.holdRejected,
    s.fwd.counters.creditDiscarded, s.fwd.pull.map (·.handle), s.fwd.preview.map (·.handle))

/-- A restart mark does not move an entry. -/
theorem mark_handles (l : List ImageEntry) (h : Handle) :
    (l.map fun e => if e.handle = h then { e with restart := true } else e).map (·.handle) = l.map (·.handle) := by
  rw [List.map_map]
  refine List.map_congr_left fun e _ => ?_
  simp only [Function.comp]
  split <;> rfl

theorem modRecord_lossKept (h : Handle) (f : FrameRecord → FrameRecord) (s : State) :
    (modRecord h f s).lossKept = s.lossKept := by
  unfold modRecord
  split <;> rfl

theorem modRecord_fwd (h : Handle) (f : FrameRecord → FrameRecord) (s : State) : (modRecord h f s).fwd = s.fwd := by
  unfold modRecord
  split <;> rfl

/-- A transfer's return frees its lane and leaves the handles of both queues in their places. -/
theorem returnTransfer_kept (p : Part) (s : State) : (returnTransfer p s).lossKept = s.lossKept := by
  unfold returnTransfer
  split
  · rfl
  · rename_i t _
    cases p
    · dsimp only
      split
      · rfl
      · refine (modRecord_lossKept _ _ _).trans ?_
        simp only [State.lossKept, modFwd, State.setFwd, Fwd.setQueue, Fwd.queue, Fwd.setLane, mark_handles]
    · dsimp only
      split
      · rfl
      · refine (modRecord_lossKept _ _ _).trans ?_
        simp only [State.lossKept, modFwd, State.setFwd, Fwd.setQueue, Fwd.queue, Fwd.setLane, mark_handles]

/-- The lanes after a transfer's return. -/
theorem returnTransfer_lanes (p : Part) (s : State) :
    (returnTransfer p s).fwd.fullLane = (if p = .full then none else s.fwd.fullLane) ∧
      (returnTransfer p s).fwd.previewLane = (if p = .preview then none else s.fwd.previewLane) := by
  cases p
  · unfold returnTransfer
    cases hl : s.fwd.fullLane with
    | none => simp [Fwd.lane, hl]
    | some t =>
      simp only [Fwd.lane, hl]
      split
      · exact ⟨rfl, rfl⟩
      · simp only [countFwd, modFwd, State.setFwd, modRecord_fwd]
        exact ⟨rfl, rfl⟩
  · unfold returnTransfer
    cases hl : s.fwd.previewLane with
    | none => simp [Fwd.lane, hl]
    | some t =>
      simp only [Fwd.lane, hl]
      split
      · exact ⟨rfl, rfl⟩
      · simp only [countFwd, modFwd, State.setFwd, modRecord_fwd]
        exact ⟨rfl, rfl⟩

end Sys2Proof.Machine
end

