-- ==== Sys2Proof/Laws/Requests.lean ====
section
/-! SUPPORT. The two request paths, said once: what a request in each way does, from which the rule of each request is read
off with the block's handler alone. -/

namespace Sys2Proof.Machine

/-- Every request of the table is its row taken by its way in. -/
theorem exec_request {i : Instr} {o : OpSpec} {v : Via} {args : List Byte} (h : rowOf i = some o)
    (hr : i.request? = some (v, args)) (s : State) : exec i s = .next (takeRequest o v args s) := by
  cases i <;> simp only [rowOf, Instr.request?, Option.some.injEq, Prod.mk.injEq, reduceCtorEq] at h hr <;>
    (obtain ⟨rfl, rfl⟩ := hr; subst h; rfl)

/-- A request that comes while the part can serve it is served with what the dispatcher makes of it. -/
theorem takeRequest_served {v : Via} {s : State} (h : CanServe v s) (o : OpSpec) (args : List Byte) :
    takeRequest o v args s = served v o.code args s (serve (some o) (issuer v) args (ready v s)).1
      (serve (some o) (issuer v) args (ready v s)).2 := by
  cases v with
  | fall => exact h.elim
  | line =>
    have hp : portTakes s = true := by
      obtain ⟨h1, h2⟩ := h
      cases hc : s.pins.csLow
      · simp [portTakes, h1, hc]
      · cases ht : s.rnu.transaction
        · exact absurd ht (h2 hc)
        · simp [portTakes, h1, ht]
    simp only [takeRequest, localRequest, hp]
    rfl
  | office tag =>
    obtain ⟨h1, h2, h3, h4⟩ := h
    have hr : ready (.office tag) s = modFwd (fun f => { f with reserved := true })
        (countLnk (fun c => { c with accepted := c.accepted + 1 }) (modLnk (fun l => { l with reception := none }) s)) := rfl
    have ho : ¬ 32 ≤ occupancy (countLnk (fun c => { c with accepted := c.accepted + 1 })
        (modLnk (fun l => { l with reception := none }) s)).fwd := Nat.not_le.2 h4
    have hg : (framerRuns s && decide (s.lnk.framer = .framed)) = true := by simp [framerRuns, h1, h2, h3]
    simp only [takeRequest, receiveRequest, hg, h2, if_true]
    rw [remoteRequest, if_neg ho, ← hr]
    rfl

/-- A request that its master may issue and that is long enough goes to its rule. -/
theorem serve_run {o : OpSpec} {m : Master} {args : List Byte} (h : o.permits m = true) (hl : o.argBytes ≤ args.length)
    (s : State) : serve (some o) m args s = o.run m args s := by
  simp only [serve, h, Bool.not_true, Bool.false_eq_true, if_false, Nat.not_lt.2 hl]

/-- A request that its master may not issue. -/
theorem serve_notPermitted {o : OpSpec} {m : Master} (h : o.permits m = false) (args : List Byte) (s : State) :
    serve (some o) m args s = (s, say .notPermitted) := by simp [serve, h]

/-- A request too short. -/
theorem serve_short {o : OpSpec} {m : Master} {args : List Byte} (h : o.permits m = true) (hl : args.length < o.argBytes)
    (s : State) : serve (some o) m args s = (s, say .badLength) := by simp [serve, h, hl]

/-! ## What is left as it was when a request is checked -/

@[simp] theorem ready_posu (v : Via) (s : State) : (ready v s).posu = s.posu := by cases v <;> rfl
@[simp] theorem ready_capu (v : Via) (s : State) : (ready v s).capu = s.capu := by cases v <;> rfl
@[simp] theorem ready_itab (v : Via) (s : State) : (ready v s).itab = s.itab := by cases v <;> rfl
@[simp] theorem ready_trgu (v : Via) (s : State) : (ready v s).trgu = s.trgu := by cases v <;> rfl
@[simp] theorem ready_ports (v : Via) (s : State) : (ready v s).ports = s.ports := by cases v <;> rfl
@[simp] theorem ready_packers (v : Via) (s : State) : (ready v s).packers = s.packers := by cases v <;> rfl
@[simp] theorem ready_fsto (v : Via) (s : State) : (ready v s).fsto = s.fsto := by cases v <;> rfl
@[simp] theorem ready_lock (v : Via) (s : State) : (ready v s).pins.lock = s.pins.lock := by cases v <;> rfl
@[simp] theorem ready_light (v : Via) (s : State) : (ready v s).pins.light = s.pins.light := by cases v <;> rfl
@[simp] theorem ready_level (v : Via) (s : State) (i : CaptureInput) : (ready v s).pins.level i = s.pins.level i := by
  cases v <;> rfl
@[simp] theorem ready_stamp (v : Via) (s : State) : (ready v s).stamp = s.stamp := by cases v <;> rfl
@[simp] theorem ready_hold (v : Via) (s : State) : (ready v s).hold = s.hold := by cases v <;> rfl
@[simp] theorem ready_pending (v : Via) (s : State) : (ready v s).pending = s.pending := by cases v <;> rfl
@[simp] theorem ready_orderIndex (v : Via) (s : State) : (ready v s).orderIndex = s.orderIndex := by cases v <;> rfl
@[simp] theorem ready_chan (v : Via) (s : State) (n : Unit8) : (ready v s).chan n = s.chan n := by cases v <;> rfl
@[simp] theorem ready_port (v : Via) (s : State) (n : Unit8) : (ready v s).port n = s.port n := by cases v <;> rfl
@[simp] theorem ready_packer (v : Via) (s : State) (n : Unit8) : (ready v s).packer n = s.packer n := by cases v <;> rfl
@[simp] theorem ready_locked (v : Via) (s : State) (n : Unit8) : (ready v s).locked n = s.locked n := by cases v <;> rfl
@[simp] theorem ready_findItem (v : Via) (s : State) (n : Nat) : findItem (ready v s) n = findItem s n := by
  cases v <;> rfl
@[simp] theorem ready_recordAt (v : Via) (s : State) (h : Handle) : recordAt (ready v s) h = recordAt s h := by
  cases v <;> rfl

/-! ## Arguments -/

/-- `n` bytes carry a number below 256 to the n. -/
theorem beNat_lt (bs : List Byte) : beNat bs < 256 ^ bs.length := by
  have h : ∀ (l : List Byte) (a k : Nat), a < 256 ^ k →
      l.foldl (fun a b => a * 256 + b.toNat) a < 256 ^ (k + l.length) := by
    intro l
    induction l with
    | nil => intro a k ha; exact ha
    | cons b t ih =>
      intro a k ha
      have hb : b.toNat < 256 := b.isLt
      have : a * 256 + b.toNat < 256 ^ (k + 1) := by rw [pow_succ]; omega
      have := ih _ _ this
      rwa [List.length_cons, Nat.add_comm t.length 1, ← Nat.add_assoc]
  simpa [beNat] using h bs 0 0 (by decide)

/-- The range of an argument of `n` bytes. -/
theorem argNat_lt (args : List Byte) (off n : Nat) : argNat args off n < 256 ^ n :=
  (beNat_lt _).trans_le (Nat.pow_le_pow_right (by decide) (List.length_take_le _ _))

/-- A port or channel argument outside 0 to 7. -/
theorem argUnit_none {args : List Byte} (h : 8 ≤ argNat args 0 1) : argUnit args = none := by
  simp [argUnit, unitOf, Nat.not_lt.2 h]

/-- A port or channel argument. -/
theorem argUnit_some {args : List Byte} {n : Unit8} (h : argNat args 0 1 = n.val) : argUnit args = some n := by
  simp [argUnit, unitOf, h]

/-- An on/off argument. -/
theorem boolOf_toNat (b : Bool) : boolOf b.toNat = some b := by cases b <;> rfl

/-- An on/off argument outside its two values. -/
theorem boolOf_none {v : Nat} (h : 2 ≤ v) : boolOf v = none := by
  rcases v with _ | _ | v
  · omega
  · omega
  · rfl

/-- A request served by its rule: the lemma that a statement of one request is read off from, with the block's handler
alone left to compute. -/
theorem serves_of_run (o : OpSpec) {i : Instr} {v : Via} {op : Byte} {args : List Byte} {s t : State} {a : Answer}
    (hrow : rowOf i = some o) (hreq : i.request? = some (v, args)) (hop : o.code = op) (hc : CanServe v s)
    (hp : o.permits (issuer v) = true) (hl : o.argBytes ≤ args.length)
    (hrun : o.run (issuer v) args (ready v s) = (t, a)) : Serves i v op args s t a := by
  unfold Serves
  rw [exec_request hrow hreq, takeRequest_served hc, serve_run hp hl, hrun, hop]

end Sys2Proof.Machine
end

