-- ==== Sys2Proof/Laws/Step.lean ====
section
/-! SUPPORT. What a step can do: said once for all that every step keeps. -/

namespace Sys2Proof.Machine

/-- What an idle step does: with nothing due one stamp unit passes, and otherwise it takes one of the events due. -/
theorem whenIdle_cases (s : State) :
    (dueEvents s = [] ∧ whenIdle s = (none, elapse 1 s)) ∨
      ∃ c ∈ dueEvents s, whenIdle s = (some c, s) ∨ whenIdle s = (some c, s.choseOrder 1) := by
  unfold whenIdle
  match h : dueEvents s with
  | [] => exact Or.inl ⟨rfl, rfl⟩
  | [c] => exact Or.inr ⟨c, List.mem_singleton.mpr rfl, Or.inl rfl⟩
  | c :: d :: t =>
    have lt : Config.orderChoice s.orderIndex % (t.length + 2) < (c :: d :: t).length := Nat.mod_lt _ (Nat.succ_pos _)
    refine Or.inr ⟨_, List.getElem_mem lt, Or.inr ?_⟩
    exact Prod.ext (List.getElem?_eq_getElem lt) rfl

/-- A step runs the front command, or in its absence a due event or one stamp unit. -/
theorem step_cases (s : State) :
    (∃ c rest, s.pending = c :: rest ∧ step s = exec c { s with pending := rest }) ∨
      (s.pending = [] ∧ dueEvents s = [] ∧ step s = .next (elapse 1 s)) ∨
      (s.pending = [] ∧ ∃ c ∈ dueEvents s, step s = exec c s ∨ step s = exec c (s.choseOrder 1)) := by
  unfold step
  cases h : s.pending with
  | cons c rest => exact Or.inl ⟨c, rest, rfl, rfl⟩
  | nil =>
    rcases whenIdle_cases s with ⟨e, w⟩ | ⟨c, m, w | w⟩
    · exact Or.inr (Or.inl ⟨rfl, e, by rw [w]⟩)
    · exact Or.inr (Or.inr ⟨rfl, c, m, Or.inl (by rw [w])⟩)
    · exact Or.inr (Or.inr ⟨rfl, c, m, Or.inr (by rw [w])⟩)

/-- What the queue, the free orders and the passing of time leave alone, and every command keeps, every step keeps. -/
theorem step_keeps {P : State → Prop} (queue : ∀ s l, P s → P { s with pending := l })
    (order : ∀ s n, P s → P (s.choseOrder n)) (time : ∀ s, P s → P (elapse 1 s))
    (command : ∀ i s t, P s → exec i s = .next t → P t) {s t : State} (h : P s) (e : step s = .next t) : P t := by
  rcases step_cases s with ⟨c, rest, _, w⟩ | ⟨_, _, w⟩ | ⟨_, c, _, w | w⟩ <;> rw [w] at e
  · exact command c _ _ (queue s rest h) e
  · cases e; exact time s h
  · exact command c _ _ h e
  · exact command c _ _ (order s 1 h) e

end Sys2Proof.Machine
end

