-- ==== Sys2Proof/Laws/Store.lean ====
section
/-! SUPPORT. Records by handle, said once: the slot table, the lowest free slot, and what a change or a freeing of one record
does to it and to the others. -/

namespace Sys2Proof.Machine

/-- The slot table lists every slot with what it holds. -/
theorem mem_slotTable {s : State} {i : Fin 512} {sl : Slot} : (i, sl) ∈ slotTable s ↔ s.fsto.slots[i] = sl := by
  have key : ∀ k, (slotTable s)[k]? = if h : k < 512 then some (⟨k, h⟩, s.fsto.slots[k]) else none := by
    intro k
    by_cases h : k < 512
    · simp [slotTable, h]
      exact Fin.ext (Nat.mod_eq_of_lt h)
    · simp [slotTable, h]
  rw [List.mem_iff_getElem?]
  constructor
  · rintro ⟨k, hk⟩
    rw [key] at hk
    split at hk
    · simp only [Option.some.injEq, Prod.mk.injEq] at hk
      obtain ⟨rfl, rfl⟩ := hk
      rfl
    · cases hk
  · rintro rfl
    exact ⟨i.val, by rw [key, dif_pos i.isLt]; rfl⟩

/-- With no free slot every slot holds a record. -/
theorem freeSlot_none {s : State} (h : freeSlot s = none) (i : Fin 512) : s.fsto.slots[i].record.isSome = true := by
  simp only [freeSlot, Option.map_eq_none_iff, List.find?_eq_none] at h
  have := h (i, s.fsto.slots[i]) (mem_slotTable.2 rfl)
  cases hx : s.fsto.slots[i].record with
  | none => exact absurd (by simp only [hx, Option.isNone_none]) this
  | some r => rfl

/-- The free slot that is given is free. -/
theorem freeSlot_some {s : State} {i : Fin 512} (h : freeSlot s = some i) : s.fsto.slots[i].record = none := by
  simp only [freeSlot, Option.map_eq_some_iff] at h
  obtain ⟨⟨j, sl⟩, hj, rfl⟩ := h
  have hm := List.mem_of_find?_eq_some hj
  have hp := List.find?_some hj
  rw [mem_slotTable.1 hm]
  simpa using hp

/-- A slot read back after it was replaced. -/
theorem slots_setSlot (s : State) (i j : Fin 512) (sl : Slot) :
    (s.setSlot i sl).fsto.slots[j] = if i = j then sl else s.fsto.slots[j] := by
  simp only [State.setSlot, Fin.getElem_fin, Vector.getElem_set, Fin.ext_iff]

/-- A record that was changed, read back. -/
theorem recordAt_modRecord {s : State} {h : Handle} {r : FrameRecord} (f : FrameRecord → FrameRecord)
    (hr : recordAt s h = some r) : recordAt (modRecord h f s) h = some (f r) := by
  simp only [modRecord, hr]
  simp only [recordAt, slots_setSlot, if_true]

/-- A handle that names no record names none after a change. -/
theorem modRecord_none {s : State} {h : Handle} (f : FrameRecord → FrameRecord) (hr : recordAt s h = none) :
    modRecord h f s = s := by simp only [modRecord, hr]

/-- A valid handle has its slot's generation. -/
theorem gen_of_recordAt {s : State} {h : Handle} {r : FrameRecord} (hr : recordAt s h = some r) :
    s.fsto.slots[h.slot].gen = h.gen ∧ s.fsto.slots[h.slot].record = some r := by
  unfold recordAt at hr
  split at hr
  · exact ⟨‹_›, hr⟩
  · cases hr

/-- A change of one record leaves the others as they are. -/
theorem recordAt_modRecord_other {s : State} {h k : Handle} (f : FrameRecord → FrameRecord) (hk : k ≠ h) :
    recordAt (modRecord h f s) k = recordAt s k := by
  cases hr : recordAt s h with
  | none => rw [modRecord_none f hr]
  | some r =>
    simp only [modRecord, hr]
    simp only [recordAt, slots_setSlot]
    obtain ⟨hs, hg⟩ := h
    obtain ⟨ks, kg⟩ := k
    by_cases e : hs = ks
    · subst e
      have hg2 : s.fsto.slots[hs].gen = hg := (gen_of_recordAt hr).1
      have hn : hg ≠ kg := fun e2 => hk (by rw [e2])
      rw [if_pos rfl, if_neg hn, if_neg (by rw [hg2]; exact hn)]
    · rw [if_neg e]

/-- A freed record: its blocks, its slot, and its handle's places (R115, R119, R124). -/
theorem freeRecord_some {s : State} {h : Handle} {r : FrameRecord} (hr : recordAt s h = some r) :
    freeRecord h s = (s.setFsto { s.fsto with
      pool := s.fsto.pool ++ r.fullBlocks ++ r.previewBlocks
      slots := s.fsto.slots.set h.slot { gen := h.gen + 1, record := none }
      age := s.fsto.age.filter fun a => a != h }).setFwd { s.fwd with
        pull := s.fwd.pull.filter fun e => e.handle != h
        preview := s.fwd.preview.filter fun e => e.handle != h } := by
  simp only [freeRecord, hr]
  rfl

/-- A handle that names no record frees none. -/
theorem freeRecord_none {s : State} {h : Handle} (hr : recordAt s h = none) : freeRecord h s = s := by
  simp only [freeRecord, hr]

/-- After a freeing the handle names no record. -/
theorem recordAt_freeRecord (h : Handle) (s : State) : recordAt (freeRecord h s) h = none := by
  cases hr : recordAt s h with
  | none => rw [freeRecord_none hr, hr]
  | some r =>
    rw [freeRecord_some hr]
    simp [recordAt, State.setFsto, State.setFwd]

/-- A freeing leaves every other valid handle valid, with its record. -/
theorem recordAt_freeRecord_other {s : State} {h k : Handle} {r : FrameRecord} (hk : k ≠ h)
    (hr : recordAt s k = some r) : recordAt (freeRecord h s) k = some r := by
  cases hh : recordAt s h with
  | none => rw [freeRecord_none hh, hr]
  | some u =>
    have gk := gen_of_recordAt hr
    have gh := gen_of_recordAt hh
    have e : h.slot ≠ k.slot := by
      obtain ⟨hs, hg⟩ := h
      obtain ⟨ks, kg⟩ := k
      intro e
      simp only at e
      subst e
      exact hk (by rw [show kg = hg from gk.1.symm.trans gh.1])
    rw [freeRecord_some hh]
    have e2 : ¬ h.slot.val = k.slot.val := fun x => e (Fin.ext x)
    simp only [recordAt, State.setFsto, State.setFwd, Fin.getElem_fin, Vector.getElem_set, e2, if_false]
    have g1 : s.fsto.slots[k.slot.val].gen = k.gen := gk.1
    have g2 : s.fsto.slots[k.slot.val].record = some r := gk.2
    rw [if_pos g1, g2]

/-- With blocks enough nothing is evicted. -/
theorem evictUntil_enough {n : Nat} {s : State} (h : n ≤ s.fsto.pool.length) (l : List Handle) : evictUntil n l s = s := by
  cases l with
  | nil => rfl
  | cons a t => exact if_pos h

/-- The handles that name no eligible record are passed over. -/
theorem evictUntil_skip {n : Nat} {s : State} {a : List Handle} (h : ∀ k ∈ a, eligibleAt s k = false) (b : List Handle) :
    evictUntil n (a ++ b) s = evictUntil n b s := by
  by_cases e : n ≤ s.fsto.pool.length
  · rw [evictUntil_enough e, evictUntil_enough e]
  · induction a with
    | nil => rfl
    | cons k t ih =>
      rw [List.cons_append, evictUntil, if_neg e, if_neg (by rw [h k (List.mem_cons_self ..)]; exact Bool.false_ne_true)]
      exact ih fun x m => h x (List.mem_cons_of_mem _ m)

/-- With blocks wanting the first eligible handle is evicted. -/
theorem evictUntil_take {n : Nat} {s : State} {k : Handle} (e : ¬n ≤ s.fsto.pool.length) (h : eligibleAt s k = true)
    (b : List Handle) : evictUntil n (k :: b) s = evictUntil n b (evict k s) := by
  rw [evictUntil, if_neg e, if_pos h]

/-- With no eligible record nothing is evicted. -/
theorem evictUntil_none {s : State} (h : oldestEligible s = none) (n : Nat) : evictUntil n s.fsto.age s = s := by
  have skip := evictUntil_skip (n := n) (s := s) (a := s.fsto.age)
    (fun k m => by
      have := List.find?_eq_none.mp h k m
      exact Bool.eq_false_iff.mpr this) []
  rw [List.append_nil] at skip
  exact skip
end Sys2Proof.Machine
end

