-- ==== Sys2Proof/Tests/Slice0.lean ====
section
/-! SUPPORT. Tests: ill-formed commands the check refuses, the arithmetic on values of the spec, single steps on small
states, and for each statement with hypotheses a state and operands that meet them. -/

namespace Sys2Proof.Tests

open Sys2Proof Sys2Proof.Machine

-- One theorem after the other: each waits for the kernel, and a thread apiece is too many in one text.
set_option Elab.async false

/-! ## Small states -/

/-- Out of reset, idle, with three free store blocks. -/
def idle : State := { State.reset with fsto := { pool := [5, 6, 7] } }

/-- The link UP and framed, the office aligned on it, with credit. -/
def up : State := { idle with
  lnk := { state := .up, framer := .framed, farAligned := true, epoch := 1, tx := .idle .up 1 none
           far := some { state := 2, epoch := 9, echo := some 1 } }
  fwd := { credit := 2 } }

/-- Held in device reset by RST. -/
def held : State := { idle with hold := { rst := true } }

/-- Channel 0 as given, on an idle part. -/
def withChan (c : Channel) (s : State) : State := s.setChan 0 c

/-- Port 0 as given, with lock. -/
def withPort (p : Port) (s : State) : State :=
  { s.setPort 0 p with pins := { s.pins with lock := s.pins.lock.set 0 true } }

/-- A frame record in a state. -/
def frame (st : RecordState) : FrameRecord :=
  { port := 0, item := 0, state := st, shotPosition := 10, fireStamp := 4, format := .mono8, preview := none, width := 16 }

/-- The handle of slot 0, generation 0. -/
def h0 : Handle := { slot := 0, gen := 0 }

/-- Slot 0 holds a record. -/
def withFrame (f : FrameRecord) (s : State) : State := s.setSlot 0 { gen := 0, record := some f }

/-- A tracked item. -/
def item7 : Item := { number := 7, origin := .declared, state := .tracked, start := 100, endPos := some 150, ejectAt := 9000 }

/-- The item is the only one in the table, and the next number is 8. -/
def withItem (it : Item) (s : State) : State := s.setItab { s.itab with items := [it], nextNumber := 8, assigned := 7 }

/-- A SCAN channel 0 with an open window on item 7's frame, its port RECEIVING. -/
def scanning (w : Window) (s : State) : State :=
  withChan { state := .running, plan := .item, window := some w }
    (withFrame { frame .filling with item := 7 } (withPort { kind := .scan, state := .receiving, current := some h0 } s))

/-- An open window on item 7's frame, its next line at position 20. -/
def window7 : Window := { item := 7, handle := h0, nextLine := 20 }

/-- The next state of an outcome, or the reset state. -/
def after (o : Host.Outcome State Fault Refusal) : State :=
  match o with
  | .next t => t
  | _ => State.reset

/-- A part that is out of reset serves LINE. -/
theorem idle_serves : CanServe .line idle := ⟨rfl, by decide⟩

/-- A part that is UP and framed serves OFFICE. -/
theorem up_serves : CanServe (.office 7) up := ⟨rfl, rfl, rfl, by decide⟩

/-! ## Ill-formed commands -/

/-- A request of OFFICE with 241 argument bytes. -/
theorem test_wf_refuses_a_long_office_request : (Instr.nop (.office 1) (List.replicate 241 0)).wf = false := by decide +kernel

/-- An unknown operation with a byte of the table. -/
theorem test_wf_refuses_a_known_unknown : (Instr.unknownOperation 0x15 []).wf = false := by decide

/-- Frame content with a wrong body length. -/
theorem test_wf_refuses_a_wrong_body_length : (Instr.frameReceived [0, 0, 0, 1, 9] 0).wf = false := by decide

/-- Well-formed commands pass. -/
theorem test_wf_takes_good_commands :
    (Instr.nop .line []).wf = true ∧ (Instr.nop (.office 1) (List.replicate 240 0)).wf = true ∧
    (Instr.unknownOperation 0x16 []).wf = true ∧ (Instr.frameReceived [0, 0, 0, 1, 1, 9] 0).wf = true := by
  decide +kernel

/-! ## Values of the spec -/

/-- The check value of the CRC of R200: the nine digits give CBF43926. -/
theorem test_crc_check_value : crc32 [0x31, 0x32, 0x33, 0x34, 0x35, 0x36, 0x37, 0x38, 0x39] = 0xCBF43926 := by
  decide +kernel

/-- R102: 2.7 and −2.7 in the four modes, and the halves under NEAREST_EVEN. -/
theorem test_rounding :
    [Rounding.towardZero, .down, .up].map (roundQuotient · 27 10) = [2, 2, 3] ∧
    [Rounding.towardZero, .down, .up].map (roundQuotient · (-27) 10) = [-2, -3, -2] ∧
    [5, 15, 25, -5].map (roundQuotient .nearestEven · 10) = [0, 2, 2, 0] := by decide

/-- R200: four values of MONO10P in five bytes and two of MONO12P in three. -/
theorem test_packing :
    packLine .mono10p [1023, 0, 513, 6] = [255, 0, 128, 1, 0xC6] ∧ packLine .mono12p [0xABC, 0x123] = [0xAB, 0x12, 0xC3] ∧
    packLine .mono16 [0x1234] = [0x12, 0x34] := by decide

/-- R33: the back distance runs round the number 16,777,215. -/
theorem test_back_distance : backDistance 16777215 2 = 2 ∧ backDistance 7 8 = 1 ∧ backDistance 8 8 = 0 := by decide

/-- Positions wrap: 5 is 10 ahead of the tenth position before 2^32, and that is behind it. -/
theorem test_positions_wrap : aheadBy 10 5 0xFFFFFFFB = true ∧ behind 0xFFFFFFFB 5 = true ∧ aheadBy 1 5 5 = false := by decide

/-! ## Single steps -/

/-- SET_SPEED 5 is written as 10 and answered CLAMPED; the response waits in the buffer. -/
theorem test_set_speed :
    (after (step { idle with pending := [.setSpeed .line [0, 0, 0, 5]] })).posu.synthSpeed = 10 ∧
    (after (step { idle with pending := [.setSpeed .line [0, 0, 0, 5]] })).rnu.response = [0x13, 0, 0, 0, 10] := by
  decide +kernel

/-- A request shifts out the response of the one before it. -/
theorem test_response_is_shifted_out :
    (after (exec (.nop .line [0, 0, 0]) { idle with rnu := { response := [1, 9] } })).rnu.shifted = [1, 9, 0, 0] := by
  decide +kernel

/-- A request of OFFICE that only LINE may issue is answered NOT_PERMITTED in the control queue. -/
theorem test_not_permitted :
    (after (exec (.setSpeed (.office 7) [0, 0, 0, 5]) up)).fwd.control =
      [{ frames := [{ kind := .response, tag := 7, op := 0x15, body := [5] }] }] := by decide +kernel

/-- A trailing argument is missing: BAD_LENGTH. -/
theorem test_bad_length : (after (exec (.setSpeed .line [0, 0, 5]) idle)).rnu.response = [4] := by decide +kernel

/-- PLAN_ITEM makes channel 0 RUNNING, and a second one finds it BUSY. -/
theorem test_plan_item :
    (after (exec (.planItem .line [0]) idle)).trgu.channels[0].state = .running ∧
    (after (exec (.planItem .line [0]) (after (exec (.planItem .line [0]) idle)))).rnu.response = [2] := by decide +kernel

/-- ENABLE_PORT without lock leaves the port UNLOCKED, and lock then makes it IDLE. -/
theorem test_enable_and_lock :
    (after (exec (.enablePort .line [3]) idle)).ports[3].state = .unlocked ∧
    (after (exec (.lockGained 3) (after (exec (.enablePort .line [3]) idle)))).ports[3].state = .idle := by decide +kernel

/-- The 16th correct delimiter enters UP and queues STATUS. -/
theorem test_sixteenth_delimiter :
    (after (exec (.receivedDelimiter (some .idle))
      { up with lnk := { up.lnk with state := .aligning, alignCount := 15 } })).lnk.state = .up ∧
    (after (exec (.receivedDelimiter (some .idle))
      { up with lnk := { up.lnk with state := .aligning, alignCount := 15 } })).fwd.control.length = 1 := by decide +kernel

/-- DECLARE_ITEM gives number 8. With the link down its ITEM_READY is dropped, and so is the NOTICE that MESSAGE_LOST asks for. -/
theorem test_declare :
    (after (exec (.declareItem .line [0, 0, 3, 232, 0, 0, 0, 50]) (withItem item7 idle))).rnu.response = [1, 0, 0, 8] ∧
    (after (exec (.declareItem .line [0, 0, 3, 232, 0, 0, 0, 50]) (withItem item7 idle))).itab.items.map (·.number) =
      [7, 8] ∧
    (after (exec (.declareItem .line [0, 0, 3, 232, 0, 0, 0, 50]) (withItem item7 idle))).fwd.counters.messagesDropped =
      2 := by decide +kernel

/-- A stored line of MONO8: 16 samples of depth 8 in block 5, and the record counts it. -/
theorem test_line_stored :
    let s := withFrame { frame .filling with fullBlocks := [5] }
      (withPort { state := .receiving, width := 16, current := some h0 } idle)
    let t := after (exec (.lnWord 0 (List.replicate 16 200)) s)
    t.fsto.mem.length = 16 ∧ memRead t.fsto.mem (5 * 262144 + 15) = 200 ∧ (recordAt t h0).map (·.lines) = some 1 := by
  decide +kernel

/-- The generator counts after 100,000,000 / speed units, and the stamp stands there. -/
theorem test_generator :
    let t := after (exec .generatorCount { idle with posu := { synthSpeed := 1000000 } })
    t.stamp = 100 ∧ t.posu.position = 1 ∧ t.posu.genPhase = 0 := by decide +kernel

/-- CS_N falls with a byte shifted in, and nothing is taken; at its rise the request is. -/
theorem test_fall_and_rise :
    let s := after (exec (.setSpeed .fall [0]) idle)
    s.rnu.transaction = some [0x15, 0] ∧ s.posu.synthSpeed = 0 ∧
    (after (exec (.setSpeed .line [0, 0, 0, 50]) s)).posu.synthSpeed = 50 ∧
    (after (exec (.setSpeed .line [0, 0, 0, 50]) s)).pins.csLow = false := by decide +kernel

/-- R198: a transaction that a reset cuts off is ignored up to its rise, and the one after it is taken. -/
theorem test_transaction_across_a_reset :
    let reset := fun s => after (exec (.resetEnd .rst) (after (exec .rstAsserted s)))
    let s := reset (after (exec (.setSpeed .fall [0]) idle))
    let t := after (exec (.setSpeed .line [0, 0, 0, 50]) s)
    t.posu.synthSpeed = 0 ∧ t.rnu.response = [] ∧ t.pins.csLow = false ∧
    (after (exec (.setSpeed .line [0, 0, 0, 50]) t)).posu.synthSpeed = 50 := by decide +kernel

/-- R199: bits above the state and the presence byte of an idle frame are ignored. -/
theorem test_far_padding : farOf [0x82, 9, 3, 1] = { state := 2, epoch := 9, echo := some 1 } := by decide

/-- R200: the idle frame that ends went out with the 59 bytes of its content, and a CONTROL header has MORE in bit 7. -/
theorem test_sent_frames :
    (after (exec .transmitFrameEnd up)).lnk.sent.map (fun f => (f.delimiter, f.bytes.take 59)) =
      some (.idle, [2, 1, 0, 0] ++ List.replicate 55 0) ∧
    (Transmission.control { kind := .response, more := true, tag := 7, op := 0x21, body := [1] } false).content =
      [0x81, 0, 7, 0x21, 1, 1] := by decide +kernel

/-- A timer that a count has started again is not due, and of one that has passed no time is left. -/
theorem test_timers : Instr.ejectPulseEnd ∉ dueEvents (ejectRequest { idle with trgu := { eject := { upTo := some 0 } } }) ∧
    microsLeft 10 5 = 0 := by decide +kernel

/-- A count to position 20 takes a line trigger there: TRIG0 is high, a line is outstanding, and the next is at 36. -/
theorem test_line_trigger :
    let t := reachChannel 0 20 (scanning window7 idle)
    (t.chan 0).trigger = some 1000 ∧ (t.chan 0).window = some { window7 with nextLine := 36, outstanding := true } := by
  decide +kernel

/-- A line at an AREA frame that has its lines is discarded, and the record takes flag LONG. -/
theorem test_long_frame :
    let t := after (exec (.lnWord 0 [1]) (withFrame { frame .filling with lines := 1 }
      (withPort { state := .receiving, lines := 1, current := some h0 } idle)))
    (t.port 0).counters.discarded = 1 ∧ (recordAt t h0).map (·.flags.long) = some true := by decide +kernel

/-- The closing segment of an abandoned transfer has no payload and LAST clear, at the last number too (log entry 24). -/
theorem test_closing_segment (s : State) :
    nextSegment .full { handle := h0, segments := 2, next := 1, abandoning := true } s =
      { handle := h0, part := .full, last := false, abandoned := true, number := 1, payload := [] } := rfl

/-- A word spells no command: the table gives no row a bit. -/
theorem test_no_word_spells_a_command : decodeTableWord 8 0x15 = none ∧ idle.withFetchWord 8 0x15 = idle := ⟨rfl, rfl⟩

/-! ## What meets the hypotheses of the statements -/

/-- StepTakesTheFrontCommand. -/
theorem witness_front_command : ({ idle with pending := [.lightGained, .lightLost] } : State).pending = .lightGained :: [.lightLost] :=
  rfl

/-- IdleStepsAndTimersMoveTheClock: nothing due, in and out of reset; one timer due, two, and the end of a RESET_DEVICE; a
timer passed and one to come. -/
theorem witness_idle_steps :
    idle.pending = [] ∧ inReset idle = false ∧ dueEvents idle = [] ∧
    (held.pending = [] ∧ inReset held = true ∧ dueEvents held = []) ∧
    (({ idle with stamp := 100000 } : State).pending = [] ∧
      dueEvents { idle with stamp := 100000 } = Instr.speedIntervalEnd :: []) ∧
    dueEvents { idle with stamp := 100000, trgu := { eject := { upTo := some 7 } } } =
      .speedIntervalEnd :: .ejectPulseEnd :: [] ∧
    Instr.resetEnd .request ∈ dueEvents { idle with hold := { request := some 0 } } ∧
    timeUp idle.stamp 0 = true ∧ timeUp idle.stamp 1 = false := by decide +kernel

/-- ResetsHoldEveryBlock. -/
theorem witness_resets : CanServe .line { idle with rnu := { response := [1] } } := ⟨rfl, by decide⟩

/-- ResetEndsWithItsLastCause: a cause of two, the last of one, and none. -/
theorem witness_reset_end :
    (inReset { idle with hold := { power := true, rst := true } } = true ∧
      inReset { idle with hold := ({ power := true, rst := true } : ResetHold).without .power } = true) ∧
    (inReset held = true ∧ inReset { held with hold := held.hold.without .rst } = false) ∧ inReset idle = false := by decide

/-- TheDispatcherChecksInOrder: not permitted, too short, and taken, by either way. -/
theorem witness_dispatcher :
    rowOf (.credit .line []) = some opCredit ∧ (Instr.credit .line []).request? = some (.line, []) ∧
    opCredit.permits (issuer .line) = false ∧ opSetSpeed.permits (issuer .line) = true ∧
    ([0, 0, 1] : List Byte).length < opSetSpeed.argBytes ∧ opSetSpeed.argBytes ≤ ([0, 0, 0, 1] : List Byte).length ∧
    opSetSpeed.permits (issuer (.office 7)) = false ∧ CanServe .line idle ∧ CanServe (.office 7) up :=
  ⟨rfl, rfl, by decide, by decide, by decide, by decide, by decide, idle_serves, up_serves⟩

/-- LocalTransactionsShiftOutTheResponse: a fall with CS_N high, a second one in a transaction, and a rise after either; an
unknown byte, and a known one. -/
theorem witness_local :
    let open_ : State := { idle with pins := { csLow := true }, rnu := { transaction := some [0] } }
    rowOf (.nop .fall [3]) = some opNop ∧ (Instr.nop .fall [3]).request? = some (.fall, [3]) ∧
    inReset idle = false ∧ idle.pins.csLow = false ∧ open_.rnu.transaction ≠ none ∧ CanServe .line idle ∧
    CanServe .line open_ ∧ (0x04 : Byte).toNat ∉ commandCodes ∧ rowOf (.nop .line [3]) = some opNop ∧
    (Instr.nop .line [3]).request? = some (.line, [3]) ∧ opNop.code = 0x00 ∧ 3 < 1 + ([1, 2, 3] : List Byte).length :=
  ⟨rfl, rfl, rfl, rfl, by decide, idle_serves, ⟨rfl, by decide⟩, by decide, rfl, rfl, rfl, by decide⟩

/-- RequestsNotTaken: a fall and a rise in reset, and with CS_N low from before one; UP with a full queue; ALIGNING; DOWN; and
hunting. -/
theorem witness_not_taken :
    rowOf (.pull (.office 7) [0, 0]) = some opPull ∧ (Instr.pull (.office 7) [0, 0]).request? = some (.office 7, [0, 0]) ∧
    rowOf (.pull .fall [0, 0]) = some opPull ∧ (Instr.pull .line [0, 0]).request? = some (.line, [0, 0]) ∧
    inReset held = true ∧
    (({ idle with pins := { csLow := true } } : State).pins.csLow = true ∧
      ({ idle with pins := { csLow := true } } : State).rnu.transaction = none) ∧
    (inReset up = false ∧ up.lnk.framer = .framed ∧ up.lnk.state = .up ∧
      32 ≤ occupancy { up.fwd with control := List.replicate 32 { frames := [] } }) ∧
    ({ up.lnk with state := .aligning } : Lnk).state = .aligning ∧ idle.lnk.state = .down ∧
    ({ up.lnk with framer := .hunting } : Lnk).framer = .hunting := by
  refine ⟨rfl, rfl, rfl, rfl, ?_⟩
  decide +kernel

/-- PlainReadsSampleAndChangeNothing, and the requests of NoticesJoinTheViewsAndCallTheOffice and TheClassifierFillsTheAuxFifo:
either way in, the empty FIFO, and one with a record. -/
theorem witness_reads :
    CanServe .line idle ∧ CanServe (.office 7) up ∧ idle.capu.fifo = [] ∧
    ({ idle with capu := { fifo := [{ input := .aux2, edge := .rise, position := 3, stamp := 4 }] } } : State).capu.fifo =
      { input := .aux2, edge := .rise, position := 3, stamp := 4 } :: [] := ⟨idle_serves, up_serves, rfl, rfl⟩

/-- NamedReadsSampleAndChangeNothing: channel 7, no channel 8, an item, and a frame. -/
theorem witness_named_reads :
    CanServe (.office 7) up ∧ argNat [7] 0 1 = (7 : Unit8).val ∧ 8 ≤ argNat [8] 0 1 ∧ 1 ≤ ([8] : List Byte).length ∧
    3 ≤ ([0, 0, 7] : List Byte).length ∧ findItem (withItem item7 idle) (argNat [0, 0, 7] 0 3) = some item7 ∧
    findItem idle (argNat [0, 0, 7] 0 3) = none ∧ 2 ≤ ([0, 0] : List Byte).length ∧
    recordAt (withFrame (frame .complete) idle) (argHandle [0, 0]) = some (frame .complete) ∧
    recordAt idle (argHandle [0, 0]) = none := by
  refine ⟨up_serves, ?_⟩
  decide +kernel

/-- NoticesJoinTheViewsAndCallTheOffice: a change of mask that uncovers a flag, with room and with none; and an answer. -/
theorem witness_notice_mask :
    exec (.readStatus .line []) idle = .next (after (exec (.readStatus .line []) idle)) ∧
    4 ≤ ([0, 0, 0, 0] : List Byte).length ∧ CanServe .line idle ∧
    CanServe (.office 7) { up with rnu := { officeView := 8, officeMask := 8 } } ∧
    ((8 : NoticeSet) &&& ~~~8 = 0 ∧ (8 : NoticeSet) &&& ~~~0 ≠ 0) ∧
    occupancy (ready (.office 7) up).fwd < 32 ∧
    CanServe (.office 7) { up with fwd := { control := List.replicate 31 { frames := [] } } } ∧
    ¬occupancy (ready (.office 7) { up with fwd := { control := List.replicate 31 { frames := [] } } }).fwd < 32 :=
  ⟨rfl, by decide, idle_serves, ⟨rfl, rfl, rfl, by decide⟩, by decide, by decide, ⟨rfl, rfl, rfl, by decide⟩, by decide⟩

/-- BodiesAndFramesHaveTheBytesOfTheirFields: a frame of each delimiter that byte positions are counted of. -/
theorem witness_bodies :
    up.lnk.tx.counts = true ∧
    (Transmission.control { kind := .message, tag := 0, op := 4, body := [] } false).counts = true ∧
    (Transmission.image {
      handle := h0, part := .full, last := true, abandoned := false, number := 0, payload := [] }).counts = true :=
  ⟨rfl, rfl, rfl⟩

/-- PositionInputAndGeometrySettings: the lowest position values in range, a value below them, and a changed sense of QUAD in
use. -/
theorem witness_position_config :
    let low : List Byte := [0, 16, 0, 10, 0, 1, 1, 1, 0]
    9 ≤ low.length ∧ CanServe .line idle ∧ argNat low 0 2 = 16 ∧ argNat low 2 2 = 10 ∧ argNat low 4 2 = 1 ∧
    argNat low 6 1 = 1 ∧ argNat low 7 1 = Sense.reverse.code.toNat ∧ argNat low 8 1 = Sense.normal.code.toNat ∧
    (Sense.reverse ≠ idle.posu.settings.quadSense ∧ inUse idle.posu .quad = false ∧
      inUse { active := .quad } .quad = true) ∧ ¬16 ≤ argNat ([0, 15] : List Byte) 0 2 ∧
    argNat ([16, 0] : List Byte) 0 2 = 4096 ∧ 2 ≤ argNat ([2] : List Byte) 0 1 :=
  ⟨by decide, idle_serves, by decide, by decide, by decide, by decide, by decide, by decide, by decide, by decide, by decide,
    by decide⟩

/-- SourcesAreSelectedAndSpeedsClamped and AbortSwitchCancelsAPendingSwitch: no such source; the active one with and without a
pending switch; another; and the request from OFFICE. -/
theorem witness_select_source :
    1 ≤ ([2] : List Byte).length ∧ CanServe .line idle ∧ CanServe (.office 7) up ∧ 3 ≤ argNat [3] 0 1 ∧
    argNat [2] 0 1 = Source.synth.code.toNat ∧ idle.posu.active = .synth ∧ idle.posu.pendingSwitch = none ∧
    ({ idle.posu with pendingSwitch := some { target := .step, count := 0, deadline := none } } : Posu).pendingSwitch =
      some { target := .step, count := 0, deadline := none } ∧ argNat [0] 0 1 = Source.quad.code.toNat ∧
    idle.posu.active ≠ .quad :=
  ⟨by decide, idle_serves, up_serves, by decide, by decide, rfl, rfl, rfl, by decide, by decide⟩

/-- SourcesAreSelectedAndSpeedsClamped: the ends of the range and beyond. -/
theorem witness_set_speed :
    4 ≤ ([0, 0, 0, 0] : List Byte).length ∧ CanServe .line idle ∧
    [[0, 0, 0, 0], [0, 0, 0, 9], [0, 0, 0, 10], [0, 61, 9, 0], [0, 61, 9, 1]].map (argNat · 0 4) =
      [0, 9, 10, 4000000, 4000001] := ⟨by decide, idle_serves, by decide⟩

/-- EdgesAndIntervalsAreSourceCounts: a count, a fault and a still edge, in and out of reset, and the generator at 10 counts per
second, 10,000,000 units from its count. -/
theorem witness_edges :
    inReset idle = false ∧ inReset held = true ∧ quadDecode .normal false false true false = .count true ∧
    quadDecode .normal false false true true = .fault ∧ quadDecode .normal false false false false = .still ∧
    idle.posu.synthSpeed = 0 ∧ 0 < ({ synthSpeed := 10 } : Posu).synthSpeed ∧ 100000000 ≤ 0 + 10 * 10000000 := by decide

/-- SourceCountsAndFaultsByTheirSource: the active source; a pending target below, at and after QUAL_COUNT; and neither. -/
theorem witness_source_counts :
    let m : Monitor := { lastCount := 0, reference := 0, score := 3, tally := 1023 }
    let p : PendingSwitch := { target := .quad, count := 255, deadline := none }
    (({ active := .quad, monitor := some m } : Posu).monitor = some m ∧ m.score + 1 < 5 ∧ 4 ≤ m.score + 1) ∧
    (idle.posu.active ≠ .quad ∧ ({ pendingSwitch := some p } : Posu).pendingSwitch = some p ∧ p.target = .quad) ∧
    p.count < idle.posu.settings.qualCount ∧ idle.posu.settings.qualCount ≤ ({ p with count := 256 } : PendingSwitch).count ∧
    idle.posu.pendingSwitch.map (·.target) ≠ some .quad ∧ idle.posu.active = .synth := by decide

/-- CountEventsMoveThePositionAndDoTheirWork: nothing at the next position, one kind of work there, and two; each work's own
conditions. -/
theorem witness_count_event :
    let entering := withItem { item7 with state := .entering, endPos := none } idle
    let both := entering.setItab { entering.itab with blind := [4196, 4196] }
    (∀ w ∈ allWork, hasWork (idle.setPosu { idle.posu with position := 1, netCounts := 1 }) 1 w = false) ∧
    (∀ v ∈ allWork, hasWork entering 4196 v = true ↔ v = .forcedEnd) ∧
    (∀ v ∈ allWork, hasWork both 4196 v = true ↔ v = .forcedEnd ∨ v = .blind) ∧
    (entering.itab.items.getLast? = some { item7 with state := .entering, endPos := none } ∧
      item7.start + BitVec.ofNat 32 entering.itab.geometry.maxLength = 4196) ∧
    (4196 : Pos) ∈ both.itab.blind ∧ (entering.itab.items.head?.map (·.ejectAt)) = some 9000 := by decide +kernel

/-- PositionTimersAndFailovers: a deadline, none; a monitor at reference 100, at 99, none; and in reset. -/
theorem witness_position_timers :
    inReset idle = false ∧ inReset held = true ∧
    ({ pendingSwitch := some { target := .quad, count := 0, deadline := some 7 } } : Posu).pendingSwitch.bind (·.deadline) =
      some 7 ∧ idle.posu.pendingSwitch.bind (·.deadline) = none ∧
    100 ≤ ({ lastCount := 0, reference := 100, score := 0, tally := 0 } : Monitor).reference ∧
    ({ lastCount := 0, reference := 99, score := 0, tally := 0 } : Monitor).reference < 100 ∧ idle.posu.monitor = none := by
  decide

/-- PositionInputAndGeometrySettings: each input value outside its table, AUX2 in range, STOP with one edge, and ITEM busy. -/
theorem witness_set_input :
    6 ≤ ([2, 3, 0, 0, 1, 2] : List Byte).length ∧ CanServe .line idle ∧ 4 ≤ argNat ([4] : List Byte) 0 1 ∧
    2 ≤ argNat ([2] : List Byte) 0 1 ∧ 3 ≤ argNat ([3] : List Byte) 0 1 ∧
    inputOf (argNat [2, 3, 0, 0, 1, 2] 0 1) = some .aux2 ∧ edgesOf (argNat [2, 3, 0, 0, 1, 2] 1 1) = some .off ∧
    levelOf (argNat [2, 3, 0, 0, 1, 2] 4 1) = some .low ∧ roleOf (argNat [2, 3, 0, 0, 1, 2] 5 1) = some .both ∧
    inputOf 3 = some .stop ∧ inputOf 0 = some .item ∧
    newestEntering (withItem { item7 with state := .entering } idle) = true ∧
    EdgeSelection.rise ≠ (idle.capu.input .item).edges :=
  ⟨by decide, idle_serves, by decide, by decide, by decide, by decide, by decide, by decide, by decide, by decide, by decide,
    by decide, by decide⟩

/-- FiltersAcceptEdgesAfterTheirTime and TheClassifierFillsTheAuxFifo: an edge with a filter, with none, one pending, one that
comes back; selected and not; the FIFO with a place and with none. -/
theorem witness_filters :
    let e : PendingEdge := { level := .high, position := 3, stamp := 4, due := 9 }
    inReset idle = false ∧ inReset held = true ∧ Level.low = (idle.capu.input .aux1).filtered ∧
    Level.high ≠ (idle.capu.input .aux1).filtered ∧ (idle.capu.input .aux1).pendingEdge = none ∧
    (idle.capu.input .aux1).filter = 0 ∧ 0 < ({ filter := 1 } : InputUnit).filter ∧
    ({ pendingEdge := some e } : InputUnit).pendingEdge = some e ∧
    (({ aux1 := { edges := .rise } } : Capu).input .aux1).edges = .rise ∧ (idle.capu.input .aux1).edges = .off ∧
    idle.capu.fifo.length < 16 ∧
    16 ≤ (List.replicate 16 ({ input := .aux1, edge := .rise, position := 0, stamp := 0 } : CaptureRecord)).length := by
  decide

/-- PositionInputAndGeometrySettings: with an item; with none, at the smallest values, and with a distance too small. -/
theorem witness_geometry :
    let a : List Byte := [0, 1, 0, 0, 0, 1, 0, 0, 0, 2, 1, 0]
    12 ≤ a.length ∧ CanServe .line idle ∧ (withItem item7 idle).itab.items ≠ [] ∧ idle.itab.items = [] ∧
    verdictOf (argNat a 10 1) = some .pass ∧ blindPolicyOf (argNat a 11 1) = some .reject ∧ argNat a 0 2 = 1 ∧
    argNat a 2 4 = 1 ∧ argNat a 6 4 = 2 ∧ 1 + largestOffset idle < 2 ∧ 2 ≤ 2 + largestOffset idle ∧ verdictOf 0 = none ∧
    blindPolicyOf 2 = none :=
  ⟨by decide, idle_serves, by decide, rfl, by decide, by decide, by decide, by decide, by decide, by decide +kernel,
    by decide +kernel, rfl, rfl⟩

/-- StopAndUntilEdgesHaltTheirPlans: no channel awaits the input; and one does, in a part where nothing else does. -/
theorem witness_until :
    (∀ n : Unit8, (idle.chan n).state ≠ .running) ∧
    (let c : Channel := { state := .running, plan := .untilEdge
                          freeRun := some { next := 5, pitch := 5, stopOn := some (.aux1, .hard) } };
      ((withChan c idle).chan 0).freeRun.bind (·.stopOn) = some (.aux1, .hard) ∧ awaitsEdge (withChan c idle) .aux1 0 = true ∧
      awaitsEdge (withChan c idle) .aux2 0 = false) := by decide

/-- ItemsAreDeclaredAndMadeFromEdges: each case of a declaration in turn. Length 0 and one too long; an ENTERING item; a start
out of order; a first shot position reached; a full table; and none of these, with a tag and without. -/
theorem witness_declare :
    let g := idle.itab.geometry
    let a : List Byte := [0, 0, 3, 232, 0, 0, 16, 0]
    8 ≤ a.length ∧ CanServe .line idle ∧ (argNat ([0, 0, 0, 0] : List Byte) 0 4 = 0 ∧ g.maxLength < 4097) ∧
    argNat a 4 4 = g.maxLength ∧ newestEntering (withItem { item7 with state := .entering } idle) = true ∧
    newestEntering (withItem item7 idle) = false ∧
    ¬(g.minGap ≤ ((163 : Pos) - item7.start).toNat ∧ ((163 : Pos) - item7.start).toNat < 2 ^ 31) ∧
    (g.minGap ≤ ((164 : Pos) - item7.start).toNat ∧ behind 164 150 = false) ∧
    passed (firstShot idle 0xFFFF0000) 0 = true ∧ passed (firstShot idle 1000) 0 = false ∧
    64 ≤ (List.replicate 64 item7).length ∧ ¬12 ≤ a.length ∧ 12 ≤ (a ++ [1, 2, 3, 4]).length :=
  ⟨by decide, idle_serves, by decide, by decide, by decide, by decide, by decide, by decide, by decide +kernel,
    by decide +kernel, by decide +kernel, by decide, by decide⟩

/-- ItemsAreDeclaredAndMadeFromEdges: the next number, which no live item has; no channel takes part; and an eject position
reached, and a greatest length reached. -/
theorem witness_append :
    let s := withItem item7 idle
    ({ item7 with number := 8 } : Item).number = s.itab.nextNumber ∧ (∀ i ∈ s.itab.items, i.number ≠ s.itab.nextNumber) ∧
    (∀ n : Unit8, takesPart (s.chan n) = false) ∧ passed 0 0 = true ∧ passed 1 0 = false := by decide

/-- R44: a position joins the blind list by its distance ahead, after an equal one; one at the present position lies a whole turn
away; and a backward count sorts the list anew. -/
theorem test_blind_order :
    placeBlind 10 20 [15, 20, 30] = [15, 20, 20, 30] ∧ placeBlind 10 10 [15, 20] = [15, 20, 10] ∧
    placeBlind 10 11 [15, 20] = [11, 15, 20] ∧ sortBlind 9 [15, 20, 10] = [10, 15, 20] ∧
    (countEvent false ((idle.setPosu { idle.posu with position := 10 }).setItab { idle.itab with blind := [15, 10] })).itab.blind =
      [10, 15] := by decide +kernel

/-- ItemEdgesMakeAndEndItems: a leading edge refused; taken; and overflowing with each policy and each room in the list. -/
theorem witness_leading :
    let full : Itab := { items := List.replicate 64 item7 }
    refusesEdge (withItem item7 idle).itab 163 = true ∧ refusesEdge (withItem item7 idle).itab 164 = false ∧
    (withItem item7 idle).itab.items.length < 64 ∧ refusesEdge full 164 = false ∧ 64 ≤ full.items.length ∧
    full.geometry.blindPolicy = .reject ∧ full.blind.length < 8 ∧ 8 ≤ (List.replicate 8 (0 : Pos)).length ∧
    ({ blindPolicy := .ignore } : Geometry).blindPolicy = .ignore := by decide +kernel

/-- ItemEdgesMakeAndEndItems: a trailing edge suppressed; no ENTERING item; and one. -/
theorem witness_trailing :
    ({ suppression := true } : Itab).suppression = true ∧ idle.itab.suppression = false ∧
    newestEntering (withItem item7 idle) = false ∧
    (withItem { item7 with state := .entering } idle).itab.items.getLast? = some { item7 with state := .entering } := by
  decide

/-- ReportsSettleItemsAndEndsCompleteThem: entries of each kind; no such item, a COMPLETE one, one with a shot pending, and one
that is settled; a message with room and without; and an ENTERING item with a shot that wants its close and without. -/
theorem witness_reports :
    let shot := fun e : Shot => ({ item7 with shots := item7.shots.set 0 e } : Item)
    (shot .pending).shots[(0 : Unit8)] = .pending ∧ (shot (.fired h0)).shots[(0 : Unit8)] = .fired h0 ∧
    item7.shots[(0 : Unit8)] ≠ .pending ∧ (shot .pending).shots[(0 : Unit8)] ≠ .fired h0 ∧
    findItem idle 7 = none ∧ findItem (withItem item7 idle) 7 = some item7 ∧ item7.settled = true ∧
    (shot .pending).settled = false ∧ ({ item7 with state := .complete } : Item).state = .complete ∧
    (up.lnk.state = .up ∧ occupancy up.fwd < 32 ∧ idle.lnk.state ≠ .up) ∧
    findItem (withItem { shot .pending with state := .entering, endPos := none } idle) 7 =
      some { shot .pending with state := .entering, endPos := none } ∧
    ((withPort { kind := .scan } idle).port 0).kind = .scan ∧ (idle.port 1).kind ≠ .scan := by decide

/-- TagsAndVerdictsWriteOneFieldOfALiveItem and WithdrawTakesAnItemOutOfTheTable: a live item, with an override and without. -/
theorem witness_tags :
    findItem (withItem item7 idle) (argNat [0, 0, 7, 2] 0 3) = some item7 ∧ CanServe .line (withItem item7 idle) ∧
    CanServe (.office 7) (withItem item7 up) ∧ findItem (withItem item7 up) 7 = some item7 ∧
    7 ≤ ([0, 0, 7, 0, 0, 0, 1] : List Byte).length ∧ 4 ≤ ([0, 0, 7, 2] : List Byte).length ∧
    argNat [0, 0, 7, 2] 3 1 = Verdict.reject.code.toNat ∧ argNat [0, 0, 7, 1] 3 1 = Verdict.pass.code.toNat ∧
    argNat [0, 0, 7, 0] 3 1 = 0 ∧ item7.lineOverride = none ∧
    ({ item7 with lineOverride := some .pass } : Item).lineOverride ≠ none :=
  ⟨by decide, ⟨rfl, by decide⟩, ⟨rfl, rfl, rfl, by decide⟩, by decide, by decide, by decide, by decide, by decide, by decide,
    rfl, by decide⟩

/-- TagsAndVerdictsWriteOneFieldOfALiveItem: number 1 is gone, the next number 8 and number 0 are unknown; and choices of each
kind. -/
theorem witness_numbers :
    findItem (withItem item7 idle) 1 = none ∧ findItem (withItem item7 idle) 8 = none ∧ findItem (withItem item7 idle) 0 = none ∧
    isGone (withItem item7 idle).itab 1 = true ∧ isGone (withItem item7 idle).itab 8 = false ∧
    isGone (withItem item7 idle).itab 0 = false ∧ CanServe .line (withItem item7 idle) ∧
    CanServe (.office 7) (withItem item7 up) ∧ argNat [0, 0, 1, 2] 3 1 ≤ 2 ∧ 3 ≤ argNat [0, 0, 1, 3] 3 1 ∧
    argNat [0, 0, 1, 0] 3 1 = 0 :=
  ⟨by decide, by decide, by decide, by decide, by decide, by decide, ⟨rfl, by decide⟩, ⟨rfl, rfl, rfl, by decide⟩, by decide,
    by decide, by decide⟩

/-- ForwarderRequestsByTheirCases: HOLD_REJECTED on, off, and neither; and a request that leaves it. -/
theorem witness_hold_rejected :
    1 ≤ ([1] : List Byte).length ∧ CanServe (.office 7) up ∧ argNat [1] 0 1 = true.toNat ∧ argNat [0] 0 1 = false.toNat ∧
    2 ≤ argNat [2] 0 1 ∧ exec (.clearStore .line []) up = .next (after (exec (.clearStore .line []) up)) :=
  ⟨by decide, up_serves, by decide, by decide, by decide, rfl⟩

/-- WithdrawTakesAnItemOutOfTheTable and RetirementSettlesTheFinalVerdict: windows of the item with a close and without, a window
of another, and a record that names it. -/
theorem witness_leaving :
    let s := scanning window7 (withItem item7 idle)
    CanServe .line s ∧ findItem s (argNat [0, 0, 7] 0 3) = some item7 ∧ (s.chan 0).window = some window7 ∧
    window7.item = item7.number ∧ window7.close = none ∧
    ((scanning { window7 with close := some (30, .held) } s).chan 0).window = some { window7 with close := some (30, .held) } ∧
    ({ window7 with item := 6 } : Window).item ≠ item7.number ∧
    recordAt s h0 = some { frame .filling with item := 7 } ∧ (frame .filling).copy = .none := by
  refine ⟨⟨rfl, by decide⟩, ?_⟩
  decide +kernel

/-- RetirementSettlesTheFinalVerdict: an override; an office verdict alone; and neither. -/
theorem witness_retirement :
    ({ item7 with lineOverride := some .reject, officeVerdict := some .pass } : Item).lineOverride = some .reject ∧
    ({ item7 with officeVerdict := some .pass } : Item).officeVerdict = some .pass ∧ item7.lineOverride = none ∧
    item7.officeVerdict = none := by decide

/-- ChannelPulseAndEjectSettings: the ends of each range, and a channel with work. -/
theorem witness_channel_settings :
    CanServe .line idle ∧ 7 ≤ ([0, 0, 0, 0, 0, 0, 1] : List Byte).length ∧ 8 ≤ argNat [8] 0 1 ∧
    argNat [7, 0, 0, 0, 0, 0, 1] 0 1 = (7 : Unit8).val ∧ argNat [7, 0, 0, 0, 0, 0, 1] 5 2 = 1 ∧
    idle.itab.geometry.maxLength + 61439 < idle.itab.geometry.ejectDistance ∧
    idle.itab.geometry.ejectDistance ≤ idle.itab.geometry.maxLength + 61440 ∧ (idle.chan 7).state = .idle ∧
    (idle.chan 7).queue = [] ∧ ((withChan { state := .running } idle).chan 0).state ≠ .idle ∧
    8 ≤ ([0, 0, 1, 1, 0, 0, 0, 1] : List Byte).length ∧ argNat [0, 0, 1, 1, 0, 0, 0, 1] 3 1 = true.toNat ∧
    argNat [0, 0, 1, 1, 0, 0, 0, 1] 1 2 = 1 ∧ argNat [0, 0, 1, 1, 0, 0, 0, 1] 6 2 = 1 ∧ argNat [0, 0] 0 2 = 0 ∧
    1 ≤ argNat [0, 1] 0 2 :=
  ⟨idle_serves, by decide, by decide, by decide, by decide, by decide, by decide, by decide, by decide, by decide, by decide,
    by decide, by decide, by decide, by decide, by decide⟩

/-- PlansStartByTheirRules: the ends of the pitch, channels of each state, and an UNTIL with AUX2 HARD. -/
theorem witness_plans :
    CanServe .line idle ∧ 7 ≤ ([0, 1, 0, 0, 0, 1, 1] : List Byte).length ∧ 8 ≤ argNat [8] 0 1 ∧
    argNat [0, 1, 0, 0, 0, 1, 1] 0 1 = (0 : Unit8).val ∧ argNat [0, 1, 0, 0, 0, 1, 1] 1 4 = 16777216 ∧
    16777216 < argNat [0, 1, 0, 0, 1] 1 4 ∧ auxOf (argNat [0, 1, 0, 0, 0, 1, 1] 5 1) = some .aux2 ∧
    actionOf (argNat [0, 1, 0, 0, 0, 1, 1] 6 1) = some .hard ∧ argNat [0, 0, 1, 0, 0, 0, 1] 1 2 = 1 ∧
    argNat [0, 0, 1, 0, 0, 0, 1] 3 4 = 1 ∧ (idle.port 0).kind = .area ∧ (idle.chan 0).state = .idle ∧
    ((withChan { state := .running, plan := .pitch } idle).chan 0).plan = .pitch ∧
    ((withPort { kind := .scan } idle).port 0).kind = .scan ∧
    ¬idle.itab.geometry.ejectDistance ≤ idle.itab.geometry.maxLength + (idle.chan 0).offset :=
  ⟨idle_serves, by decide, by decide, by decide, by decide, by decide, by decide, by decide, by decide, by decide, by decide,
    by decide, by decide, by decide, by decide⟩

/-- HaltsActOnTheNamedChannels: channel 0 with a queued shot of item 7, and a close, over a port in state `st` with frame `f`. -/
def halting (st : PortState) (f : RecordState) : State :=
  withChan { state := .running, plan := .item, queue := [
      { item := 7, pos := 500, kind := .areaShot }, { item := 7, pos := 600, kind := .windowClose }] }
    (withFrame (frame f) (withPort { state := st, current := some h0, windowEnd := some 9 }
      (withItem { item7 with shots := item7.shots.set 0 .pending } idle)))

/-- HaltsActOnTheNamedChannels: an ARMED port, an AREA port in RECEIVING, and a port at rest; an open window with its frame FILLING
and with it truncated; a queued shot of a PENDING entry, and a close; and a channel that is IDLE. -/
theorem witness_hard_halt :
    let s := halting .armed .expected
    let cut := { frame .filling with state := .truncated .cameraLost }
    ((s.chan 0).state ≠ .idle ∧ (s.chan 0).window = none ∧ (s.port 0).state = .armed ∧ (s.port 0).current = some h0 ∧
      recordAt s h0 = some (frame .expected)) ∧
    ((halting .receiving .filling).port 0).state = .receiving ∧ ((halting .idle .filling).port 0).state = .idle ∧
    ({ item := 7, pos := 500, kind := .areaShot } : ShotEntry) ∈ (s.chan 0).queue ∧
    (findItem s 7).any (fun it => decide (it.shots[(0 : Unit8)] = .pending)) = true ∧ (idle.chan 0).state = .idle ∧
    (let w := scanning window7 idle;
      ((w.chan 0).state ≠ .idle ∧ (w.chan 0).window = some window7 ∧ (w.port 0).current = some window7.handle ∧
        (recordAt w window7.handle).any (fun r => decide (r.state = .filling)) = true) ∧
      (recordAt (withFrame cut w) window7.handle).any (fun r => decide (r.state = .filling)) = false) := by decide +kernel

/-- R69: what a hard halt makes of an ARMED port, of an AREA port in RECEIVING, and of an open window. -/
theorem test_hard_halt :
    let a := hardHalt 0 (halting .armed .expected)
    let b := hardHalt 0 (halting .receiving .filling)
    let c := hardHalt 0 (scanning window7 idle)
    let gone : State → Bool := fun t => decide ((recordAt t h0).map (·.state) = some (.truncated .halted))
    (a.port 0).state = .idle ∧ (a.port 0).windowEnd = none ∧ (a.port 0).counters.truncated = 1 ∧ gone a = true ∧
    (a.chan 0).skipped = 1 ∧ (findItem a 7).map (fun it => it.shots[(0 : Unit8)]) = some (.missed .halted) ∧
    (b.port 0).state = .draining ∧ gone b = true ∧ (c.port 0).state = .idle ∧ (c.chan 0).window = none ∧ gone c = true := by
  decide +kernel

/-- HaltsActOnTheNamedChannels: a mask that names channel 0 alone, a RUNNING channel at rest and one with work. -/
theorem witness_halts :
    1 ≤ ([1] : List Byte).length ∧ CanServe .line idle ∧ (argNat [1] 0 1).testBit 0 = true ∧
    (argNat [1] 0 1).testBit 1 = false ∧ ((withChan { state := .running } idle).chan 0).state = .running ∧
    ((withChan { state := .running } idle).port 0).state.atRest = true ∧
    ((withPort { state := .armed } idle).port 0).state.atRest = false :=
  ⟨by decide, idle_serves, by decide, by decide, by decide, by decide, by decide⟩

/-- PulsesLastForTheirWidths: each output high, and none. -/
theorem witness_pulses :
    inReset idle = false ∧ inReset held = true ∧ idle.trgu.eject.upTo = none ∧ (idle.chan 0).trigger = none ∧
    (idle.chan 0).strobe = .low ∧ ({ upTo := some 9 } : EjectTimer).upTo = some 9 ∧
    ((withChan { trigger := some 9 } idle).chan 0).trigger = some 9 ∧
    ((withChan { strobe := .delaying 9 5 } idle).chan 0).strobe = .delaying 9 5 ∧
    ((withChan { strobe := .high 9 } idle).chan 0).strobe = .high 9 := by decide

/-- ShotsFireOrMissByTheirPort: a port of each kind of state, a free slot, and a store without one. -/
theorem witness_shots :
    (idle.port 0).state = .disabled ∧ ((withPort { state := .draining } idle).port 0).state = .draining ∧
    ((withPort { state := .idle } idle).port 0).state = .idle ∧ freeSlot idle = some 0 ∧
    freeSlot { idle with fsto := { slots := Vector.replicate 512 { gen := 0, record := some (frame .filling) } } } = none ∧
    oldestEligible { idle with fsto := { slots := Vector.replicate 512 { gen := 0, record := some (frame .filling) } } } =
      none ∧
    oldestEligible (({ idle with fsto := { age := [h0] } } : State).setSlot 0
      { gen := 0, record := some { frame .complete with previewState := .sent } }) = some h0 := by decide +kernel

/-- ShotsAreScheduledWithinTheLoad: an open window of the item and of another; a queued open of the item and none; and an
item whose number nothing names. -/
theorem witness_scheduled :
    let open_ : ShotEntry := { item := 8, pos := 30, kind := .windowOpen }
    let s := withItem item7 idle
    (((scanning window7 s).chan 0).window = some window7 ∧ window7.item = 7 ∧ window7.item ≠ 8) ∧
    passed 20 20 = true ∧ passed 21 20 = false ∧ (∃ e ∈ [open_], e.item = 8 ∧ e.kind = .windowOpen) ∧
    (∀ e ∈ [open_], e.item = 7 → e.kind ≠ .windowOpen) ∧ (∀ i ∈ s.itab.items, i.number ≠ 8) ∧ (s.chan 0).queue = [] ∧
    (∀ m : Unit8, (s.chan m).window = none) ∧ ¬16 ≤ load (s.chan 0) ∧
    16 ≤ load { queue := List.replicate 16 { open_ with kind := .areaShot } } ∧
    15 ≤ load { queue := List.replicate 8 open_ } := by decide

/-- ScanWindowsOpenTakeLinesAndClose: a port of each kind of state, a slot and none; a window with its next line here, short of
its close and at it, its frame FILLING and ended; and a line awaited. -/
theorem witness_scan :
    let s := scanning { window7 with outstanding := true } idle
    ((withPort { kind := .scan, state := .idle } idle).port 0).state = .idle ∧ freeSlot idle = some 0 ∧
    (s.port 0).state = .receiving ∧ (s.chan 0).window = some { window7 with outstanding := true } ∧
    (idle.chan 0).window = none ∧ (recordAt s h0).any (fun r => decide (r.state = .filling)) = true ∧
    (recordAt idle h0).any (fun r => decide (r.state = .filling)) = false ∧
    (1 ≤ ((21 : Pos) - 20).toNat ∧ ((21 : Pos) - 20).toNat < 2 ^ 31) ∧ ¬1 ≤ ((20 : Pos) - 20).toNat ∧
    (s.port 0).current = some window7.handle ∧ inReset s = false ∧ s.pins.lock[(0 : Unit8)] = true ∧ (s.port 0).kind = .scan ∧
    (s.chan 0).window.any (·.outstanding) = true := by decide +kernel

/-- ChannelsTakeWhatACountReaches: a head at the position and one elsewhere; and a loose target at the position and elsewhere,
on an AREA port that is IDLE and on one that is not, with a slot and with none. -/
theorem witness_channel_reached :
    let e : ShotEntry := { item := 7, pos := 20, kind := .areaShot }
    let c : Channel := { state := .running, plan := .count, queue := [e]
                         freeRun := some { next := 20, pitch := 5, remaining := some 1 } }
    let s := withChan c (withPort { state := .idle } idle)
    (s.chan 0).queue = e :: [] ∧ e.pos = 20 ∧ (s.chan 0).queue.head? = some e ∧ (∀ x ∈ [e], x.pos ≠ 21) ∧
    ((takeHeads 0 21 1 s).chan 0).queue.head? = some e ∧
    (s.chan 0).freeRun = some { next := 20, pitch := 5, remaining := some 1 } ∧ (s.chan 0).state = .running ∧
    (∀ t ∈ (s.chan 0).freeRun, t.next ≠ 21) ∧ ((s.port 0).kind = .area ∧ (s.port 0).state = .idle) ∧
    (idle.port 0).state ≠ .idle ∧ freeSlot s = some 0 ∧
    freeSlot { s with fsto := { slots := Vector.replicate 512 { gen := 0, record := some (frame .filling) } } } = none := by
  decide +kernel

/-- PortSettingsAreWrittenWholeOrNot: the lowest values in range, a width out of step, and a port with work. -/
theorem witness_port_settings :
    let a : List Byte := [7, 1, 0, 16, 0, 1, 8, 0, 0, 0, 1]
    let b : List Byte := [7, 3, 0xF0, 0, 0, 0, 3, 1, 0, 0, 0, 0, 1]
    CanServe .line idle ∧ CanServe (.office 7) up ∧ 11 ≤ a.length ∧ argNat a 0 1 = (7 : Unit8).val ∧
    argNat a 1 1 = PortKind.scan.code.toNat ∧ (argNat a 2 2 = 16 ∧ argNat a 4 2 = 1 ∧ argNat a 6 1 = 8 ∧ argNat a 7 4 = 1) ∧
    24 % 16 ≠ 0 ∧ ((idle.port 7).state = .disabled ∧ (idle.chan 7).queue = [] ∧ (idle.chan 7).window = none) ∧
    ¬(((withPort { state := .armed } idle).port 0).state = .disabled ∨
      ((withPort { state := .armed } idle).port 0).state = .idle) ∧
    (13 ≤ b.length ∧ argNat b 1 1 = Format.mono16.code.toNat ∧ argInt2 b 2 = -4096 ∧ argNat b 6 1 = Rounding.up.code.toNat ∧
      argNat b 7 1 = RangeMode.mark.code.toNat ∧ argNat b 8 4 = 0 ∧ argNat b 12 1 = true.toNat) ∧
    argInt2 [0x10, 0] 0 = 4096 ∧ (3 ≤ ([7, 0, 16] : List Byte).length ∧ argNat [7, 0, 16] 2 1 ∈ [2, 4, 8, 16]) ∧
    argNat [7, 0, 3] 2 1 ∉ [2, 4, 8, 16] :=
  ⟨idle_serves, up_serves, by decide, by decide, by decide, by decide, by decide, by decide, by decide, by decide, by decide,
    by decide, by decide⟩

/-- PortsAreEnabledDisabledAndReset: a port of each state that the clauses name, and one outside 0 to 7. -/
theorem witness_enable :
    1 ≤ ([0] : List Byte).length ∧ CanServe .line idle ∧ CanServe (.office 7) up ∧ 8 ≤ argNat [8] 0 1 ∧
    argNat [0] 0 1 = (0 : Unit8).val ∧ (idle.port 0).state = .disabled ∧
    ((withPort { state := .idle } idle).port 0).state = .idle ∧ (withChan { state := .halting } idle |>.chan 0).state ≠ .idle :=
  ⟨by decide, idle_serves, up_serves, by decide, by decide, by decide, by decide, by decide⟩

/-- LockEventsAndFrameWindows: a port of each state, a window that runs on a frame, and none; a frame cut by a lost lock, and
a window of its channel. -/
theorem witness_lock :
    inReset idle = false ∧ inReset held = true ∧ (idle.port 0).state ≠ .unlocked ∧ (idle.port 0).state = .disabled ∧
    ((withPort { state := .unlocked } idle).port 0).state = .unlocked ∧
    (((withPort { state := .armed, current := some h0, windowEnd := some 9 } idle).port 0).state ≠ .disabled ∧
      ((withPort { state := .armed, current := some h0, windowEnd := some 9 } idle).port 0).windowEnd = some 9 ∧
      ((withPort { state := .armed, current := some h0, windowEnd := some 9 } idle).port 0).current = some h0) ∧
    (idle.port 0).windowEnd = none ∧
    recordAt (withFrame (frame .expected) idle) h0 = some (frame .expected) ∧
    (((scanning window7 idle).port 0).current = some h0 ∧
      ((after (exec (.lockLost 0) (scanning window7 idle))).chan 0).window = some window7) := by decide +kernel

/-- CameraWordsByPortState: without lock; a SCAN port; and AREA ports of each state. -/
theorem witness_words :
    inReset idle = false ∧ idle.pins.lock[0] = false ∧ (withPort {} idle).pins.lock[0] = true ∧
    ((withPort { kind := .scan, state := .receiving } idle).port 0).kind = .scan ∧
    ((withPort { kind := .scan, state := .receiving } idle).chan 0).window.any (·.outstanding) = false ∧
    (idle.port 0).kind = .area ∧
    ((withPort { state := .armed, current := some h0 } idle).port 0).current = some h0 ∧
    ((withPort { state := .draining } idle).port 0).state = .draining ∧
    linesReceived 0 (withFrame (frame .filling) (withPort { state := .receiving, current := some h0, lines := 1 } idle)) <
      1 ∧
    1 ≤ linesReceived 0
      (withFrame { frame .filling with lines := 1 } (withPort { state := .receiving, current := some h0, lines := 1 } idle)) := by
  decide +kernel

/-- SamplesAreConvertedExactly: a whole quotient, one that is not, and a mean of some values. -/
theorem witness_samples : 0 < 4 ∧ (8 : Int) % 4 = 0 ∧ (-6 : Int) % 4 ≠ 0 ∧ 0 < 1 := by decide

/-- LinesAreStoredInTheirBlocks: a FILLING record with a block of each list, the packer without a context and with its own, and
room for the line and for its preview line. -/
theorem witness_lines :
    let f := { frame .filling with fullBlocks := [5], previewBlocks := [6], preview := some 2 }
    let c : FrameContext := { handle := h0, preview := some 2, columns := emptyColumns 8, rows := 1 }
    let s := withFrame f (idle.setPacker 0 { context := some c })
    recordAt s h0 = some f ∧ (idle.packer 0).context = none ∧ memWf s.fsto.mem = true ∧
    (f.fullBlocks ++ f.previewBlocks).Nodup ∧ f.fullBytes + 16 ≤ f.fullBlocks.length * 262144 ∧
    (s.packer 0).context = some c ∧ c.handle = h0 ∧ f.previewBytes + c.columns.length ≤ f.previewBlocks.length * 262144 ∧
    (packLine .mono8 (List.replicate 16 1)).length = 16 ∧ 15 < (packLine .mono8 (List.replicate 16 1)).length ∧
    (∀ k, k < 16 → 0 ≠ runAddress [5] (0 + k)) ∧ (∀ k, k < 8 → 0 ≠ runAddress [6] (0 + k)) ∧ 16 % 4 = 0 := by
  decide +kernel

/-- RoomIsGivenOrTheFrameIsTruncated: blocks enough, and blocks wanting with an eligible record and with none; a record; and a
line that finds room and one that does not. -/
theorem witness_room :
    let f := { frame .filling with fullBlocks := [5] }
    let s := withFrame f (withPort { state := .receiving, current := some h0 } idle)
    let empty := s.setFsto { s.fsto with pool := [] }
    let old := withFrame { frame .complete with previewState := .sent } { idle with fsto := { pool := [], age := [h0] } }
    2 ≤ idle.fsto.pool.length ∧ (empty.fsto.pool.length < 1 ∧ oldestEligible empty = none) ∧
    (old.fsto.pool.length < 1 ∧ oldestEligible old = some h0) ∧ recordAt s h0 = some f ∧ (s.port 0).current = some h0 ∧
    (roomRequest h0 true true s).1 = true ∧ (roomRequest h0 true false empty).1 = false ∧
    (roomRequest h0 false false empty).1 = true := by decide +kernel

/-- FaultsAndPreviewRows: a limit passed, met and 0; a context with a preview and without, at the last line of its row and before
it, with a row begun and with none; and no context. -/
theorem witness_preview_rows :
    let f := { frame .filling with clippedLow := 5, preview := some 2 }
    recordAt (withFrame f idle) h0 = some f ∧ (4 ≠ 0 ∧ 4 < 5 + 0 + 0 ∧ f.flags.conversionFault = false) ∧ ¬5 < 5 + 0 + 0 ∧
    (idle.packer 0).context = none ∧
    ((idle.setPacker 0 { context := some { handle := h0, preview := some 2, columns := [], rows := 0 } }).packer 0).context =
      some { handle := h0, preview := some 2, columns := [], rows := 0 } ∧ 0 + 1 < 2 ∧ 2 ≤ 1 + 1 := by decide +kernel

/-- FramesEndWithTheirEndWork: a current frame, and the auto-full policy due with room and with a pull load of 64. -/
theorem witness_frame_end :
    let s := scanning window7 { up with fwd := { autoFull := Vector.replicate 8 .all } }
    let full := { s with fwd := { s.fwd with pull := List.replicate 64 { handle := h0 } } }
    (s.port 0).current = some h0 ∧ recordAt s h0 = some { frame .filling with item := 7 } ∧
    (frame .filling).fullState = .none ∧ s.fwd.autoFull[(0 : Unit8)] = .all ∧ pullLoad s < 64 ∧ 64 ≤ pullLoad full := by
  decide +kernel

/-- StoreRequestsByTheirCases: a valid handle and a stale one; a holder and none; each case of a discard; and both marks. -/
theorem witness_store :
    2 ≤ ([0, 0] : List Byte).length ∧ CanServe .line idle ∧ CanServe (.office 7) up ∧ recordAt idle (argHandle [0, 0]) = none ∧
    recordAt (withFrame (frame .complete) idle) (argHandle [0, 0]) = some (frame .complete) ∧
    recordAt (withFrame (frame .complete) idle) (argHandle [0, 1]) = none ∧
    ({ line := true } : Holders).has (issuer .line) = true ∧ ({} : Holders).has (issuer (.office 7)) = false ∧
    (frame .filling).state = .filling ∧ argNat [63, 255] 0 2 ≤ 16383 ∧ 16384 ≤ argNat [64, 0] 0 2 :=
  ⟨by decide, idle_serves, up_serves, by decide +kernel, by decide +kernel, by decide +kernel, rfl, rfl, rfl, by decide,
    by decide⟩

/-- LightAndRetrainsTakeTheLinkDown: each link state, a hold and none, and a retrain pending and none. -/
theorem witness_light :
    inReset idle = false ∧ inReset held = true ∧ (idle.lnk.state = .down ∧ idle.lnk.hold = none) ∧ up.lnk.state = .up ∧
    ({ up.lnk with state := .aligning } : Lnk).state = .aligning ∧ ({ hold := some 9 } : Lnk).hold = some 9 ∧
    CanServe .line idle ∧ CanServe .line up ∧ CanServe (.office 7) up ∧ up.lnk.retrainPending = false ∧
    CanServe (.office 7) { up with lnk := { up.lnk with retrainPending := true } } ∧ DownCause.lossOfLight ≠ .retrain :=
  ⟨rfl, rfl, ⟨rfl, rfl⟩, rfl, rfl, rfl, idle_serves, ⟨rfl, by decide⟩, up_serves, rfl, ⟨rfl, rfl, rfl, by decide⟩, by decide⟩

/-- DelimitersFrameAndAlignTheLink: both modes, both states, an error run of 2 and of 3, a count of 14 and of 15, and header
lengths 240 and 241. -/
theorem witness_delimiters :
    inReset up = false ∧ up.lnk.state = .up ∧ up.lnk.framer = .framed ∧ idle.lnk.framer = .hunting ∧ idle.lnk.state = .down ∧
    ¬3 ≤ ({ errorRun := 2 } : Lnk).errorRun ∧ 3 ≤ ({ errorRun := 3 } : Lnk).errorRun ∧
    ({ alignCount := 14 } : Lnk).alignCount < 15 ∧ 15 ≤ ({ alignCount := 15 } : Lnk).alignCount ∧
    ({ reception := some .header } : Lnk).reception = some .header ∧ up.lnk.reception ≠ some .header ∧
    (240 : Byte).toNat ≤ 240 ∧ 240 < (241 : Byte).toNat ∧ occupancy up.fwd < 32 ∧ Delimiter.idle ≠ .image ∧
    32 ≤ occupancy { control := List.replicate 32 { frames := [] } } := by decide

/-- FramesAreCheckedAsTheyEnd: an idle frame and a request with a good CRC and with a bad one, a frame that is no request, a
known operation and an unknown one, and content of another length. -/
theorem witness_frames :
    let request : List Byte := [0, 0, 7, 0x68, 0]
    let idleFrame : List Byte := [2, 9, 1, 1] ++ List.replicate 55 0
    inReset up = false ∧ up.lnk.state ≠ .down ∧ up.lnk.framer = .framed ∧
    ({ up.lnk with reception := some .idle } : Lnk).reception = some .idle ∧ idleFrame.length = 59 ∧
    (∀ crc : BitVec 32, crc32 idleFrame = crc → crc32 idleFrame ≠ crc + 1) ∧
    ({ up.lnk with reception := some (.control 0) } : Lnk).reception = some (.control 0) ∧ request.length = 5 + 0 ∧
    (crc32 request ≠ 0 ∧ request.getD 0 0 = 0 ∧ BitVec.ofNat 16 (argNat request 1 2) = 7 ∧ request.getD 3 0 = opReadLink.code) ∧
    rowOf (.readLink (.office 7) []) = some opReadLink ∧ request.drop 5 = [] ∧ (0x04 : Byte).toNat ∉ commandCodes ∧
    ([1, 0, 7, 0x68, 0] : List Byte).getD 0 0 ≠ 0 ∧ request.length ≠ 59 ∧ up.lnk.reception = none := by
  refine ⟨rfl, by decide, rfl, rfl, rfl, fun crc h k => ?_, rfl, rfl, by decide +kernel, rfl, rfl, by decide, by decide,
    by decide, rfl⟩
  have := congrArg BitVec.toNat (h.symm.trans k : crc = crc + 1)
  rw [BitVec.toNat_add] at this
  have b := crc.isLt
  have e : (1 : BitVec 32).toNat = 1 := rfl
  rw [e] at this
  omega

/-- TheTransmitterTakesItsNextFrame: each kind of frame going out; each reason not to ask; and a control entry of one frame, of
two, and none, with credit and with work in a lane. -/
theorem witness_transmitter :
    let f : ControlFrame := { kind := .message, tag := 0, op := 4, body := [] }
    let g : Segment := { handle := h0, part := .full, last := true, abandoned := false, number := 0, payload := [] }
    inReset up = false ∧ up.lnk.tx.counts = true ∧ ({} : Lnk).tx.counts = false ∧ sendWait up.lnk ≠ 0 ∧
    sendWait { up.lnk with txSent := 64 } = 0 ∧ up.lnk.tx = .idle .up 1 none ∧
    (({ tx := .control f true, retrainPending := true } : Lnk).tx = .control f true) ∧ ({ tx := .image g } : Lnk).tx = .image g ∧
    (up.lnk.state = .up ∧ up.lnk.farAligned = true ∧ up.lnk.idleDue < 16) ∧ ¬idle.lnk.state = .up ∧
    ({ control := [{ frames := [f] }] } : Fwd).control = { frames := [f] } :: [] ∧ up.fwd.control = [] ∧
    (1 ≤ up.fwd.credit ∧ idle.fwd.credit = 0) ∧ chooseLane up.fwd = none ∧
    chooseLane { up.fwd with pull := [{ handle := h0 }] } = some .full ∧
    chooseLane { up.fwd with pull := [{ handle := h0 }], preview := [{ handle := h0 }], fullRun := 8 } = some .preview ∧
    chooseLane { up.fwd with fullLane := some { handle := h0, segments := 1 } } = some .full ∧
    recordAt (withFrame (frame .complete) up) h0 = some (frame .complete) := by decide +kernel

/-- SegmentsAreMadeAndReported: a transfer that goes on and one that is abandoned, of a part with bytes; and reports of a
segment that is not the last, of the last, with its lane abandoning and not, and of a closing one. -/
theorem witness_segments :
    let f := { frame .complete with lines := 1, fullBlocks := [5], fullState := .sending }
    let t : Transfer := { handle := h0, segments := 1 }
    let s := withFrame f { up with fwd := { fullLane := some t, pull := [{ handle := h0 }] } }
    let gone := { s with fwd := { s.fwd with fullLane := some { t with abandoning := true } } }
    t.abandoning = false ∧ recordAt s h0 = some f ∧ (nextSegment .full t s).last = true ∧
    (nextSegment .full t s).payload.length = 16 ∧ (nextSegment .full { t with segments := 2 } s).last = false ∧
    (nextSegment .full { t with abandoning := true } s).abandoned = true ∧
    s.fwd.lane .full = some t ∧ (∃ x, gone.fwd.lane .full = some x ∧ x.abandoning = true) := by
  refine ⟨rfl, by decide +kernel, rfl, by decide +kernel, rfl, rfl, rfl, _, rfl, rfl⟩

/-- ForwarderRequestsByTheirCases: the ends of the credit, each full state, and a load of 64. -/
theorem witness_forwarder :
    2 ≤ ([0, 1] : List Byte).length ∧ CanServe (.office 7) up ∧ (argNat [0, 0] 0 2 = 0 ∧ 256 ≤ argNat [1, 0] 0 2) ∧
    (argNat [0, 253] 0 2 = 253 ∧ up.fwd.credit + 253 ≤ 255 ∧ 255 < up.fwd.credit + 254) ∧
    recordAt up (argHandle [0, 0]) = none ∧
    recordAt (withFrame { frame .complete with fullState := .queued } up) (argHandle [0, 0]) =
      some { frame .complete with fullState := .queued } ∧ (frame .complete).fullState = .none ∧ pullLoad up < 64 ∧
    64 ≤ pullLoad { up with fwd := { pull := List.replicate 64 { handle := h0 } } } ∧ 8 ≤ argNat [8] 0 1 ∧
    3 ≤ argNat [3] 0 1 ∧ argNat [7, 2] 0 1 = (7 : Unit8).val ∧ argNat [7, 2] 1 1 = AutoFull.onReject.code.toNat :=
  ⟨by decide, up_serves, by decide, by decide, by decide +kernel, by decide +kernel, rfl, by decide +kernel,
    by decide +kernel, by decide, by decide, by decide, by decide⟩

/-- The link UP, an item in the table, a byte in the store, and a flag in each view and mask. -/
def busy : State := { withItem item7 up with
  fsto := { pool := [6], mem := [(9, 1)] }, rnu := { lineView := 1, officeView := 8, lineMask := 1, officeMask := 8 } }

/-- StepsKeepTheStoreAndTheViews: a state that has what is kept, and its step. -/
theorem witness_store_and_views : StoreAndViewsOk busy ∧ ∃ t, step busy = .next t := by
  refine ⟨?_, _, rfl⟩
  unfold StoreAndViewsOk
  decide

/-- StepsKeepTheLineSide: with a blind list that holds a near position, an equal one, and the present one, a whole turn away. -/
theorem witness_line_side :
    PositionOk busy.posu ∧ TableOk busy.posu.position busy.capu
      { busy.itab with blind := [busy.posu.position + 1, busy.posu.position + 1, busy.posu.position] } := by
  constructor
  · refine ⟨by decide, fun w h => ?_, by decide, fun m h => ?_, rfl, by decide, Or.inl rfl⟩
    · cases (show (none : Option PendingSwitch) = some w from h)
    · cases (show (none : Option Monitor) = some m from h)
  · unfold TableOk BlindOrder
    decide

/-- SettingsAreReadAsTheyStand: each master. -/
theorem witness_settings_reads : CanServe .line idle ∧ CanServe (.office 7) up := ⟨idle_serves, up_serves⟩

/-- StepsKeepTheLinkAndTheForwarder. -/
theorem witness_link : LinkOk busy := by
  refine ⟨fun h => absurd rfl h, fun h => ?_, fun h => ?_, ⟨fun h => ?_, fun h => ?_⟩, rfl, by decide, by decide, by decide,
    by decide, fun h => False.elim h, by decide, by decide, fun h => ?_⟩
  · cases (show LinkState.up = .down from h)
  · cases (show false = true from h)
  · cases (show Transmission.idle .up 1 none = .breakFill from h)
  · cases (show false = true from h)
  · cases (show LinkState.up = .aligning from h)

/-- A part with an item in the table, a shot of it in the queue of channel 1, and its frame in reception at port 0. -/
def receiving : State :=
  let s := withItem { item7 with shots := (item7.shots.set 0 (.fired h0)).set 1 .pending }
    { State.reset with fsto := { pool := blocksFrom 16383 1 } }
  let f := { frame .filling with item := 7, fullBlocks := [0], fullState := .await }
  ((withChan { state := .running, plan := .item } (withFrame f (withPort { state := .receiving, current := some h0 } s))).setPacker
    0 { context := some { handle := h0, preview := none, columns := [], rows := 0 } }).setChan
    1 { state := .running, plan := .item, queue := [{ item := 7, pos := 300, kind := .areaShot }] }

/-- Slot 0 of `receiving` has the only record. -/
theorem receiving_record {h : Handle} {r : FrameRecord} (e : recordAt receiving h = some r) :
    h = h0 ∧ r = { frame .filling with item := 7, fullBlocks := [0], fullState := .await } := by
  obtain ⟨i, g⟩ := h
  have slot : receiving.fsto.slots[i] = if i = 0 then
      { gen := 0, record := some { frame .filling with item := 7, fullBlocks := [0], fullState := .await } } else {} := by
    show ((Vector.replicate 512 ({} : Slot)).set 0 _)[i.val] = _
    rw [Vector.getElem_set]
    by_cases hi : i = 0
    · subst hi; rfl
    · rw [if_neg hi, if_neg (fun c => hi (Fin.ext c.symm)), Vector.getElem_replicate]
  unfold recordAt at e
  simp only [slot] at e
  by_cases hi : i = 0
  · subst hi
    rw [if_pos rfl] at e
    by_cases hg : (0 : BitVec 7) = g
    · subst hg
      rw [if_pos rfl] at e
      exact ⟨rfl, (Option.some.inj e).symm⟩
    · rw [if_neg hg] at e; cases e
  · rw [if_neg hi] at e
    by_cases hg : (0 : BitVec 7) = g
    · rw [if_pos hg] at e; cases e
    · rw [if_neg hg] at e; cases e

/-- StepsKeepTheTriggers. -/
theorem witness_triggers : TriggersOk receiving ∧ (∀ it ∈ receiving.itab.items, it.number ≠ receiving.itab.nextNumber) ∧
    StartsRise receiving.itab ∧ WithinHalf receiving.itab := by
  refine ⟨⟨by decide, by decide, fun n => ⟨?_, ?_, fun e he => ?_⟩⟩, by decide, ?_, ?_⟩
  · revert n; decide
  · revert n; decide
  · have q : ∀ n : Unit8, ∀ e ∈ (receiving.chan n).queue, e = { item := 7, pos := 300, kind := .areaShot } := by decide
    rw [q n e he]
    exact ⟨_, rfl, fun k => by cases k⟩
  · unfold StartsRise; decide
  · unfold WithinHalf; decide

/-- StepsKeepTheCatalogue. -/
theorem witness_catalogue : CatalogueOk receiving ∧ QueuesOk receiving := by
  have kept : recordAt receiving h0 = some { frame .filling with item := 7, fullBlocks := [0], fullState := .await } := by
    decide +kernel
  refine ⟨⟨?_, List.nodup_nil, fun h => ⟨fun m => (List.not_mem_nil m).elim, fun ⟨r, e, f⟩ => ?_⟩, fun h r e _ => ?_,
    fun n => ⟨?_, fun h c => ?_, ?_, ?_, ?_, ?_, ?_⟩⟩, List.nodup_nil, List.nodup_nil, by decide +kernel,
    fun h => ⟨fun m => (List.not_mem_nil m).elim, fun ⟨r, e, f⟩ => ?_⟩,
    fun h => ⟨fun m => (List.not_mem_nil m).elim, fun ⟨r, e, f⟩ => ?_⟩, fun h r e => ?_, fun t k => ?_,
    fun t k => ?_, fun g k => ?_⟩
  · have blocks : receiving.fsto.slots.toList.flatMap Slot.blocks = [0] := by decide +kernel
    rw [blocks]
    exact List.perm_append_singleton _ _
  · rw [(receiving_record e).2] at f; cases f
  · rw [(receiving_record e).1, (receiving_record e).2]; rfl
  · revert n; decide
  · have port : ∀ n : Unit8, ∀ h ∈ (receiving.port n).current, n = 0 ∧ h = h0 := by decide
    obtain ⟨a, b⟩ := port n h c
    subst a b
    exact ⟨_, kept, rfl, rfl⟩
  · revert n; decide
  · revert n; decide
  · revert n; decide
  · revert n; decide
  · revert n; decide
  · rw [(receiving_record e).2] at f; rcases f with f | f <;> cases f
  · rw [(receiving_record e).2] at f; rcases f with f | f <;> cases f
  · rw [(receiving_record e).2]
    exact ⟨⟨Or.inr rfl, rfl⟩, (fun k => by cases k), (fun k => by cases k)⟩
  · cases (show (none : Option Transfer) = some t from k)
  · cases (show (none : Option Transfer) = some t from k)
  · cases (show Transmission.idle .down 0 none = .image g from k)
end Sys2Proof.Tests
end

section
/-! PROOFS. What every step keeps of the line side (O56): first what most operations leave alone of it, then what the rest keep. -/

namespace Sys2Proof.Machine

/-- POSU but for the phase of its rate generator, of which no bound speaks. -/
def Posu.unphased (p : Posu) : Posu := { p with genPhase := 0 }

/-- What `TableOk` speaks of, but for the items. -/
def State.tableSide (s : State) :=
  (s.posu.position, s.capu.fifo, s.capu.dropped, s.itab.blind, s.itab.assigned, s.itab.nextNumber, s.itab.geometry)

/-- From `s` to `t` nothing changes that `TableOk` speaks of, but that items may leave the table. -/
structure TableKept (s t : State) : Prop where
  side : t.tableSide = s.tableSide
  items : t.itab.items.length ≤ s.itab.items.length

/-- From `s` to `t` nothing changes that `PositionOk` and `TableOk` speak of, but that items may leave the table. -/
structure LineKept (s t : State) : Prop where
  posu : t.posu.unphased = s.posu.unphased
  table : TableKept s t

/-- The bounds of the line side: those of POSU, and those of the aux FIFO and the item table. -/
def LineOk (s : State) : Prop := PositionOk s.posu ∧ TableOk s.posu.position s.capu s.itab

theorem TableKept.refl (s : State) : TableKept s s := ⟨rfl, Nat.le_refl _⟩

theorem TableKept.trans {a b c : State} (h : TableKept a b) (k : TableKept b c) : TableKept a c :=
  ⟨k.side.trans h.side, k.items.trans h.items⟩

theorem LineKept.refl (s : State) : LineKept s s := ⟨rfl, .refl s⟩

theorem LineKept.trans {a b c : State} (h : LineKept a b) (k : LineKept b c) : LineKept a c :=
  ⟨k.posu.trans h.posu, h.table.trans k.table⟩

/-- `LineKept.trans` read from the last operation back. -/
theorem LineKept.before {a b c : State} (k : LineKept b c) (h : LineKept a b) : LineKept a c := h.trans k

/-- The phase of the rate generator has no bound. -/
theorem positionOk_unphased (p : Posu) : PositionOk p.unphased ↔ PositionOk p := Iff.rfl

theorem TableKept.ok {s t : State} (k : TableKept s t) (h : TableOk s.posu.position s.capu s.itab) :
    TableOk t.posu.position t.capu t.itab := by
  obtain ⟨side, items⟩ := k
  simp only [State.tableSide, Prod.mk.injEq] at side
  obtain ⟨position, fifo, dropped, blind, assigned, next, geometry⟩ := side
  unfold TableOk at h ⊢
  rw [position, fifo, dropped, blind, assigned, next, geometry]
  exact ⟨h.1, h.2.1, items.trans h.2.2.1, h.2.2.2⟩

theorem LineKept.ok {s t : State} (k : LineKept s t) (h : LineOk s) : LineOk t :=
  ⟨(positionOk_unphased _).1 (k.posu ▸ (positionOk_unphased _).2 h.1), k.table.ok h.2⟩

/-- An operation that leaves POSU, CAPU and ITAB as they are. -/
theorem LineKept.of_eq {s t : State} (hp : t.posu = s.posu) (hc : t.capu = s.capu) (hi : t.itab = s.itab) :
    LineKept s t := by
  refine ⟨by rw [hp], ?_, ?_⟩
  · simp only [State.tableSide, hp, hc, hi]
  · rw [hi]

/-- An operation of an item, a channel, a port or a record. -/
theorem Calm.lineKept {s t : State} (h : Calm s t) : LineKept s t := by
  obtain ⟨still, table, -⟩ := h
  simp only [State.still, Prod.mk.injEq] at still
  simp only [State.table, Prod.mk.injEq] at table
  obtain ⟨-, -, -, -, posu, capu, -⟩ := still
  obtain ⟨itab, numbers, -⟩ := table
  have len := congrArg List.length numbers
  simp only [List.length_map] at len
  simp only [Itab.mk.injEq, true_and] at itab
  refine ⟨by rw [posu], ?_, len.le⟩
  simp only [State.tableSide, posu, capu, itab]

/-! ## Time, notices and the link -/

theorem elapse_lineKept (n : Nat) (s : State) : LineKept s (elapse n s) := by
  unfold elapse
  split <;> exact ⟨rfl, rfl, Nat.le_refl _⟩

theorem reachTime_lineKept (t : Stamp) (s : State) : LineKept s (reachTime t s) := by
  unfold reachTime
  split
  · exact .refl s
  · exact elapse_lineKept _ s

theorem setLine_lineKept (n : Notice) (s : State) : LineKept s (setLine n s) := .of_eq rfl rfl rfl

theorem offerNotice_lineKept (s : State) : LineKept s (offerNotice s) := (offerNotice_calm s).lineKept

theorem setOffice_lineKept (n : Notice) (s : State) : LineKept s (setOffice n s) := by
  unfold setOffice callOffice
  split
  · exact (offerNotice_lineKept _).before (.of_eq rfl rfl rfl)
  · exact .of_eq rfl rfl rfl

theorem setBoth_lineKept (n : Notice) (s : State) : LineKept s (setBoth n s) :=
  (setLine_lineKept n s).trans (setOffice_lineKept n _)

theorem modLnk_lineKept (f : Lnk → Lnk) (s : State) : LineKept s (modLnk f s) := .of_eq rfl rfl rfl
theorem countLnk_lineKept (f : LinkCounters → LinkCounters) (s : State) : LineKept s (countLnk f s) := .of_eq rfl rfl rfl
theorem modFwd_lineKept (f : Fwd → Fwd) (s : State) : LineKept s (modFwd f s) := .of_eq rfl rfl rfl
theorem countFwd_lineKept (f : ForwardCounters → ForwardCounters) (s : State) : LineKept s (countFwd f s) := .of_eq rfl rfl rfl
theorem modRecord_lineKept (h : Handle) (f : FrameRecord → FrameRecord) (s : State) : LineKept s (modRecord h f s) :=
  (modRecord_calm h f s).lineKept
theorem startFill_lineKept (s : State) : LineKept s (startFill s) := .of_eq rfl rfl rfl
theorem startHold_lineKept (s : State) : LineKept s (startHold s) := .of_eq rfl rfl rfl
theorem dropHunting_lineKept (s : State) : LineKept s (dropHunting s) := .of_eq rfl rfl rfl

theorem alignIfLit_lineKept (s : State) : LineKept s (alignIfLit s) := by
  unfold alignIfLit
  split
  · exact .of_eq rfl rfl rfl
  · exact .refl s

theorem returnTransfer_lineKept (p : Part) (s : State) : LineKept s (returnTransfer p s) := by
  have h := returnTransfer_kept p s
  simp only [State.lossKept, Prod.mk.injEq] at h
  obtain ⟨-, -, -, -, posu, capu, itab, -⟩ := h
  exact .of_eq posu capu itab

theorem forwardLoss_lineKept (s : State) : LineKept s (forwardLoss s) := by
  unfold forwardLoss
  exact (modFwd_lineKept _ _).before ((returnTransfer_lineKept _ _).before ((returnTransfer_lineKept _ _).before
    (modFwd_lineKept _ s)))

theorem leaveUp_lineKept (cause : DownCause) (cutting : Bool) (s : State) : LineKept s (leaveUp cause cutting s) := by
  unfold leaveUp
  extract_lets s1 s2
  have h1 : LineKept s s1 := .of_eq rfl rfl rfl
  have h2 : LineKept s s2 := h1.trans ((forwardLoss_lineKept s1).trans (setLine_lineKept _ _))
  clear_value s2
  split
  · exact h2.trans ((startHold_lineKept s2).trans (startFill_lineKept _))
  · exact h2.trans ((alignIfLit_lineKept s2).trans (startFill_lineKept _))

theorem enterUp_lineKept (s : State) : LineKept s (enterUp s) :=
  (modLnk_lineKept _ s).trans ((setLine_lineKept _ _).trans (queueMessage_calm _ _ _).lineKept)

theorem countCorrect_lineKept (s : State) : LineKept s (countCorrect s) := by
  unfold countCorrect
  split
  · exact .refl s
  · dsimp only
    split
    · exact (modLnk_lineKept _ s).trans (enterUp_lineKept _)
    · exact modLnk_lineKept _ s
  · exact modLnk_lineKept _ s

theorem correctDelimiter_lineKept (d : Delimiter) (s : State) : LineKept s (correctDelimiter d s) := by
  have h : LineKept s (countCorrect (modLnk (fun l => { l with framer := .framed }) s)) :=
    (modLnk_lineKept _ s).trans (countCorrect_lineKept _)
  cases d with
  | idle => exact h.trans (.of_eq rfl rfl rfl)
  | control => exact h.trans (.of_eq rfl rfl rfl)
  | image => exact h.trans ((countLnk_lineKept _ _).trans (dropHunting_lineKept _))

theorem delimiterError_lineKept (s : State) : LineKept s (delimiterError s) := by
  unfold delimiterError
  extract_lets s1 s2
  have h1 : LineKept s s1 := .of_eq rfl rfl rfl
  have h2 : LineKept s s2 := .of_eq rfl rfl rfl
  split
  · split
    · exact h2.trans (leaveUp_lineKept _ _ _)
    · exact h2
  · exact h1

theorem takeDelimiter_lineKept (d : Option Delimiter) (s : State) : LineKept s (takeDelimiter d s) := by
  unfold takeDelimiter
  split
  · cases d with
    | none => exact delimiterError_lineKept s
    | some d => exact correctDelimiter_lineKept d s
  · exact .refl s

theorem takeHuntDelimiter_lineKept (d : Delimiter) (s : State) : LineKept s (takeHuntDelimiter d s) := by
  unfold takeHuntDelimiter
  split
  · exact correctDelimiter_lineKept d s
  · exact .refl s

theorem takeHuntSpan_lineKept (s : State) : LineKept s (takeHuntSpan s) := by
  unfold takeHuntSpan
  split
  · exact delimiterError_lineKept s
  · exact .refl s

theorem takeControlHeader_lineKept (length : Byte) (s : State) : LineKept s (takeControlHeader length s) := by
  unfold takeControlHeader
  split
  · split <;> exact .of_eq rfl rfl rfl
  · exact .refl s

theorem takeLightGained_lineKept (s : State) : LineKept s (takeLightGained s) := by
  unfold takeLightGained
  dsimp only
  split
  · exact .of_eq rfl rfl rfl
  · exact (alignIfLit_lineKept _).before (.of_eq rfl rfl rfl)

theorem takeLightLost_lineKept (s : State) : LineKept s (takeLightLost s) := by
  unfold takeLightLost
  dsimp only
  split
  · exact .of_eq rfl rfl rfl
  · split
    · exact .of_eq rfl rfl rfl
    · exact .of_eq rfl rfl rfl
    · exact (leaveUp_lineKept _ _ _).before (.of_eq rfl rfl rfl)

theorem retrainNow_lineKept (s : State) : LineKept s (retrainNow s) := by
  unfold retrainNow
  split
  · exact leaveUp_lineKept _ _ s
  · exact .of_eq rfl rfl rfl
  · exact .of_eq rfl rfl rfl

theorem takeHoldEnd_lineKept (s : State) : LineKept s (takeHoldEnd s) := by
  unfold takeHoldEnd
  split
  · exact .refl s
  · split
    · exact .refl s
    · exact (reachTime_lineKept _ s).trans ((modLnk_lineKept _ _).trans ((alignIfLit_lineKept _).trans (startFill_lineKept _)))

theorem beginTransfer_lineKept (p : Part) (s : State) : LineKept s (beginTransfer p s).2 := by
  unfold beginTransfer
  split
  · exact .refl s
  · split
    · exact .refl s
    · exact (modFwd_lineKept _ s).trans (modRecord_lineKept _ _ _)

theorem imageStep_lineKept (s : State) : LineKept s (imageStep s).2 := by
  unfold imageStep
  split
  · exact .refl s
  · split
    · exact beginTransfer_lineKept _ s
    · exact .of_eq rfl rfl rfl

theorem controlStep_lineKept (e : ControlEntry) (rest : List ControlEntry) (s : State) :
    LineKept s (controlStep e rest s).2 := by
  unfold controlStep
  split
  · exact .refl s
  · exact .of_eq rfl rfl rfl
  · exact .of_eq rfl rfl rfl

theorem arbiter_lineKept (s : State) : LineKept s (arbiter s).2 := by
  unfold arbiter
  split
  · exact controlStep_lineKept _ _ s
  · split
    · exact imageStep_lineKept s
    · exact .refl s

theorem nextFrame_lineKept (s : State) : LineKept s (nextFrame s) := by
  have h := arbiter_lineKept s
  unfold nextFrame
  split
  · split <;> rename_i e <;> rw [e] at h <;> exact h.trans (modLnk_lineKept _ _)
  · exact modLnk_lineKept _ s

theorem beginRetrain_lineKept (s : State) : LineKept s (beginRetrain s) := by
  unfold beginRetrain
  split
  · exact leaveUp_lineKept _ _ s
  · exact nextFrame_lineKept s

theorem segmentReport_lineKept (g : Segment) (s : State) : LineKept s (segmentReport g s) := by
  unfold segmentReport
  extract_lets s1 s2
  have h2 : LineKept s s2 := .of_eq rfl rfl rfl
  split
  · exact .of_eq rfl rfl rfl
  · split
    · split
      · exact h2
      · exact h2.trans ((modFwd_lineKept _ _).trans (modRecord_lineKept _ _ _))
    · exact .of_eq rfl rfl rfl

theorem frameEnded_lineKept (s : State) : LineKept s (frameEnded s) := by
  unfold frameEnded
  split
  · exact .refl s
  · exact .refl s
  · exact (modLnk_lineKept _ s).trans (nextFrame_lineKept _)
  · dsimp only
    split
    · exact (modLnk_lineKept _ s).trans (beginRetrain_lineKept _)
    · exact (modLnk_lineKept _ s).trans (nextFrame_lineKept _)
  · exact (modLnk_lineKept _ s).trans ((segmentReport_lineKept _ _).trans (nextFrame_lineKept _))

theorem takeFrameEnd_lineKept (s : State) : LineKept s (takeFrameEnd s) := by
  unfold takeFrameEnd
  split
  · exact .refl s
  · extract_lets s1
    have h1 : LineKept s s1 := by
      change LineKept s (if _ then _ else _)
      split
      · exact .refl s
      · exact elapse_lineKept _ s
    exact h1.trans ((modLnk_lineKept _ _).trans (frameEnded_lineKept _))

/-! ## Pulses and cameras -/

theorem takeEjectEnd_lineKept (s : State) : LineKept s (takeEjectEnd s) := by
  unfold takeEjectEnd
  split
  · exact .refl s
  · split
    · exact .refl s
    · exact (reachTime_lineKept _ s).trans (.of_eq rfl rfl rfl)

theorem takeTriggerEnd_lineKept (n : Unit8) (s : State) : LineKept s (takeTriggerEnd n s) := by
  unfold takeTriggerEnd
  split
  · exact .refl s
  · split
    · exact .refl s
    · exact (reachTime_lineKept _ s).trans (modChan_calm _ _ _).lineKept

theorem takeStrobeDelayEnd_lineKept (n : Unit8) (s : State) : LineKept s (takeStrobeDelayEnd n s) := by
  unfold takeStrobeDelayEnd
  split
  · split
    · exact .refl s
    · exact (reachTime_lineKept _ s).trans (modChan_calm _ _ _).lineKept
  · exact .refl s
  · exact .refl s

theorem takeStrobeEnd_lineKept (n : Unit8) (s : State) : LineKept s (takeStrobeEnd n s) := by
  unfold takeStrobeEnd
  split
  · split
    · exact .refl s
    · exact (reachTime_lineKept _ s).trans (modChan_calm _ _ _).lineKept
  · exact .refl s
  · exact .refl s

theorem settleAs_calm (n : Unit8) (st : PortState) (s : State) : Calm s (settleAs n st s) :=
  (modPort_calm _ _ s).trans (settleChannel_calm _ _)

theorem gapCheck_calm (n : Unit8) (counter : BitVec 16) (s : State) : Calm s (gapCheck n counter s) := modPort_calm _ _ s
theorem unsolicited_calm (n : Unit8) (s : State) : Calm s (unsolicited n s) := modPort_calm _ _ s
theorem stray_calm (n : Unit8) (s : State) : Calm s (stray n s) := countPort_calm _ _ s
theorem discardLine_calm (n : Unit8) (s : State) : Calm s (discardLine n s) := countPort_calm _ _ s
theorem unrequestedLine_calm (n : Unit8) (s : State) : Calm s (unrequestedLine n s) := countPort_calm _ _ s
theorem clearOutstanding_calm (n : Unit8) (s : State) : Calm s (clearOutstanding n s) := modChan_calm _ _ s

theorem endAreaFrame_calm (n : Unit8) (noFe : Bool) (s : State) : Calm s (endAreaFrame n noFe s) :=
  completeFrame_calm _ _ s

theorem startFrame_calm (n : Unit8) (counter : BitVec 16) (s : State) : Calm s (startFrame n counter s) := by
  unfold startFrame
  split
  · exact .refl s
  · exact (modRecord_calm _ _ s).trans ((modPort_calm _ _ _).trans (beginContext_calm _ _ _))

theorem takeFs_calm (n : Unit8) (counter : BitVec 16) (s : State) : Calm s (takeFs n counter s) := by
  have gap := gapCheck_calm n counter s
  unfold takeFs
  split
  · exact .refl s
  · cases (s.port n).kind with
    | scan => exact .refl s
    | area =>
      cases (s.port n).state with
      | disabled => exact .refl s
      | unlocked => exact .refl s
      | armed => exact gap.trans (startFrame_calm _ _ _)
      | idle => exact gap.trans (unsolicited_calm _ _)
      | receiving => exact gap.trans ((endAreaFrame_calm _ _ _).trans (unsolicited_calm _ _))
      | draining => exact gap.trans (unsolicited_calm _ _)

theorem takeAreaLine_calm (n : Unit8) (samples : List Nat) (s : State) : Calm s (takeAreaLine n samples s) := by
  unfold takeAreaLine
  split
  · exact offerLine_calm _ _ s
  · split
    · exact .refl s
    · exact (modRecord_calm _ _ s).trans (discardLine_calm _ _)

theorem takeScanLine_calm (n : Unit8) (samples : List Nat) (s : State) : Calm s (takeScanLine n samples s) := by
  have line := (offerLine_calm n samples s).trans (clearOutstanding_calm n _)
  unfold takeScanLine
  split
  · dsimp only
    split
    · exact line.trans ((truncateFrame_calm _ _ _).trans (modPort_calm _ _ _))
    · exact line
  · exact unrequestedLine_calm n s

theorem takeLn_calm (n : Unit8) (samples : List (BitVec 14)) (s : State) : Calm s (takeLn n samples s) := by
  unfold takeLn
  split
  · exact .refl s
  · dsimp only
    split
    · exact .refl s
    · exact .refl s
    · exact stray_calm n s
    · exact unrequestedLine_calm n s
    · exact stray_calm n s
    · exact takeAreaLine_calm _ _ s
    · exact takeScanLine_calm _ _ s
    · exact discardLine_calm n s

theorem takeFe_calm (n : Unit8) (s : State) : Calm s (takeFe n s) := by
  unfold takeFe
  split
  · exact .refl s
  · cases (s.port n).kind with
    | scan => exact .refl s
    | area =>
      cases (s.port n).state with
      | disabled => exact .refl s
      | unlocked => exact .refl s
      | idle => exact stray_calm n s
      | armed => exact stray_calm n s
      | receiving => exact (endAreaFrame_calm _ _ s).trans (settleAs_calm _ _ _)
      | draining => exact settleAs_calm _ _ s

theorem expireRecord_calm (n : Unit8) (h : Handle) (s : State) : Calm s (expireRecord n h s) := by
  unfold expireRecord
  split
  · exact .refl s
  · rename_i r _
    extract_lets s1 s2
    have h1 : Calm s s1 := by
      change Calm s (if _ then _ else _)
      split
      · exact report_calm _ _ _ s
      · exact .refl s
    have h2 : Calm s s2 := h1.trans (freeRecord_calm h s1)
    split
    · exact h2
    · exact h2.trans (setBoth_calm (by decide) (by decide) _)

theorem takeWindowExpiry_lineKept (n : Unit8) (s : State) : LineKept s (takeWindowExpiry n s) := by
  unfold takeWindowExpiry
  split
  · exact .refl s
  · split
    · exact (reachTime_lineKept _ s).trans
        ((expireRecord_calm _ _ _).trans ((modPort_calm _ _ _).trans (settleAs_calm _ _ _))).lineKept
    · exact .refl s

theorem setLock_lineKept (n : Unit8) (b : Bool) (s : State) : LineKept s (setLock n b s) := .of_eq rfl rfl rfl

theorem takeLockGained_lineKept (n : Unit8) (s : State) : LineKept s (takeLockGained n s) := by
  have lock := setLock_lineKept n true s
  unfold takeLockGained
  dsimp only
  split
  · exact lock
  · split
    · exact lock.trans ((modPort_calm _ _ _).trans (settleAs_calm _ _ _)).lineKept
    · exact lock

theorem loseLock_calm (n : Unit8) (s : State) : Calm s (loseLock n s) := by
  unfold loseLock
  extract_lets s1 s2
  have h1 : Calm s s1 := by
    change Calm s (if _ then _ else _)
    split
    · exact (truncateFrame_calm _ _ s).trans (clearOutstanding_calm _ _)
    · exact .refl s
  exact h1.trans ((modPort_calm _ _ _).trans ((setBoth_calm (by decide) (by decide) _).trans (settleChannel_calm _ _)))

theorem takeLockLost_lineKept (n : Unit8) (s : State) : LineKept s (takeLockLost n s) := by
  have lock := setLock_lineKept n false s
  unfold takeLockLost
  dsimp only
  split
  · exact lock
  · cases (s.port n).state with
    | disabled => exact lock
    | unlocked => exact lock
    | idle => exact lock.trans (loseLock_calm n _).lineKept
    | armed => exact lock.trans (loseLock_calm n _).lineKept
    | receiving => exact lock.trans (loseLock_calm n _).lineKept
    | draining => exact lock.trans (loseLock_calm n _).lineKept

end Sys2Proof.Machine
end

section
/-! PROOFS. The requests that leave the line side as it is (O56), and the two ways in. -/

namespace Sys2Proof.Machine

/-- A block's rule leaves the line side as it is, whoever asks and with whatever arguments. -/
def KeepsLine (run : Handler) : Prop := ∀ m args s, LineKept s (run m args s).1

/-- A block's rule keeps the bounds of the line side. -/
def KeepsLineOk (run : Handler) : Prop := ∀ m args s, LineOk s → LineOk (run m args s).1

theorem KeepsLine.ok {run : Handler} (h : KeepsLine run) : KeepsLineOk run := fun m args s => (h m args s).ok

/-- Each side of a decision leaves the line side as it is. -/
theorem lineKept_ite {c : Prop} [Decidable c] {s : State} {x y : State × Answer} (hx : LineKept s x.1)
    (hy : LineKept s y.1) : LineKept s (if c then x else y).1 := by
  split
  · exact hx
  · exact hy

/-- A state that leaves the line side as it is, with the answer given in it. -/
theorem LineKept.answered {s t : State} (h : LineKept s t) (a : Answer) : LineKept s (t, a).1 := h

theorem modChan_lineKept (n : Unit8) (f : Channel → Channel) (s : State) : LineKept s (modChan n f s) :=
  .of_eq rfl rfl rfl

theorem modPort_lineKept (n : Unit8) (f : Port → Port) (s : State) : LineKept s (modPort n f s) := .of_eq rfl rfl rfl

theorem modItem_lineKept (n : Nat) (f : Item → Item) (s : State) : LineKept s (modItem n f s) :=
  ⟨rfl, rfl, (List.length_map _).le⟩

theorem readAs_keepsLine (f : State → List Byte) : KeepsLine (readAs f) := fun _ _ s => .refl s

theorem readUnit_keepsLine (f : Unit8 → State → List Byte) : KeepsLine (readUnit f) := fun _ args s => by
  unfold readUnit
  split <;> exact .refl s

theorem onUnit_keepsLine {f : Unit8 → List Byte → State → State × Answer} (h : ∀ n args s, LineKept s (f n args s).1) :
    KeepsLine (onUnit f) := fun _ args s => by
  unfold onUnit
  split
  · exact .refl s
  · exact h _ args s

theorem onItem_keepsLine {f : Item → Master → List Byte → State → State × Answer}
    (h : ∀ it m args s, LineKept s (f it m args s).1) : KeepsLine (onItem f) := fun m args s => by
  unfold onItem
  split
  · exact .refl s
  · exact h _ m args s

theorem onFrame_keepsLine {f : Handle → FrameRecord → Master → State → State × Answer}
    (h : ∀ k r m s, LineKept s (f k r m s).1) : KeepsLine (onFrame f) := fun m args s => by
  unfold onFrame
  split
  · exact .refl s
  · exact h _ _ m s

/-! ## Capture and items -/

theorem setInput_lineKept (i : CaptureInput) (edges : EdgeSelection) (filter : Nat) (level : Level) (role : Role)
    (s : State) : LineKept s (setInput i edges filter level role s).1 := by
  have hm : LineKept s (modInput i (fun u => { u with edges := edges, filter := filter, level := level, role := role }) s) := by
    cases i <;> exact ⟨rfl, rfl, Nat.le_refl _⟩
  refine lineKept_ite (.refl s) (lineKept_ite (.refl s) ?_)
  dsimp only
  split
  · exact hm.trans ⟨rfl, rfl, Nat.le_refl _⟩
  · exact hm

theorem runSetInput_keepsLine : KeepsLine runSetInput := fun _ args s => by
  unfold runSetInput
  split
  · exact setInput_lineKept _ _ _ _ _ s
  · exact .refl s

theorem runReadItem_keepsLine : KeepsLine runReadItem := onItem_keepsLine fun _ _ _ s => .refl s

theorem runTagItem_keepsLine : KeepsLine runTagItem :=
  onItem_keepsLine fun _ _ _ s => (modItem_lineKept _ _ s).answered _

theorem removeItem_lineKept (n : Nat) (s : State) : LineKept s (removeItem n s) := ⟨rfl, rfl, List.length_filter_le _ _⟩

theorem withdraw_lineKept (it : Item) (s : State) : LineKept s (withdraw it s) := by
  unfold withdraw
  extract_lets s1 s2 s3
  have h1 : LineKept s s1 := (leaveQueues_calm it.number s).lineKept.trans (removeItem_lineKept _ _)
  clear_value s1
  have h2 : LineKept s s2 := h1.trans (writeCopies_calm _ _ _ _ s1).lineKept
  have h3 : LineKept s s3 := h2.trans (queueMessage_calm _ _ s2).lineKept
  clear_value s3
  exact h3.trans ⟨rfl, rfl, Nat.le_refl _⟩

theorem runWithdrawItem_keepsLine : KeepsLine runWithdrawItem := onItem_keepsLine fun it _ _ s => withdraw_lineKept it s

theorem lateVerdict_lineKept (n : Nat) (s : State) : LineKept s (lateVerdict n s).1 := by
  unfold lateVerdict
  dsimp only
  split
  · exact ⟨rfl, rfl, Nat.le_refl _⟩
  · exact .refl s

theorem runVerdict_keepsLine : KeepsLine runVerdict := fun _ args s => by
  unfold runVerdict
  split
  · exact .refl s
  · split
    · exact lateVerdict_lineKept _ s
    · exact lineKept_ite ⟨rfl, rfl, Nat.le_refl _⟩ ((modItem_lineKept _ _ s).answered _)

theorem runOverride_keepsLine : KeepsLine runOverride := fun m args s => by
  unfold runOverride
  split
  · exact .refl s
  · exact onItem_keepsLine (fun _ _ _ s => lineKept_ite (.refl s) ((modItem_lineKept _ _ s).answered _)) m args s

theorem runSetHoldRejected_keepsLine : KeepsLine runSetHoldRejected := fun _ args s => by
  unfold runSetHoldRejected
  split
  · exact .refl s
  · exact .of_eq rfl rfl rfl

/-! ## Channels -/

theorem runSetChannel_keepsLine : KeepsLine runSetChannel := onUnit_keepsLine fun _ _ s =>
  lineKept_ite (.refl s) (lineKept_ite (.refl s) ((modChan_lineKept _ _ s).answered _))

theorem runSetPulse_keepsLine : KeepsLine runSetPulse := onUnit_keepsLine fun _ args s => by
  dsimp only
  split
  · exact .refl s
  · exact lineKept_ite ((modChan_lineKept _ _ s).answered _) (.refl s)

theorem runPlanItem_keepsLine : KeepsLine runPlanItem := onUnit_keepsLine fun _ _ s =>
  lineKept_ite (.refl s) (lineKept_ite (.refl s) ((modChan_lineKept _ _ s).answered _))

theorem startFreePlan_lineKept (n : Unit8) (pitch : Nat) (plan : Plan) (stopOn : Option (AuxInput × UntilAction))
    (s : State) : LineKept s (startFreePlan n pitch plan stopOn s).1 :=
  lineKept_ite (.refl s) (lineKept_ite (.refl s) ((modChan_lineKept _ _ s).answered _))

theorem runRunPitch_keepsLine : KeepsLine runRunPitch := onUnit_keepsLine fun _ _ s =>
  lineKept_ite (.refl s) (startFreePlan_lineKept _ _ _ _ s)

theorem runRunUntil_keepsLine : KeepsLine runRunUntil := onUnit_keepsLine fun _ args s => by
  split
  · exact lineKept_ite (.refl s) (startFreePlan_lineKept _ _ _ _ s)
  · exact .refl s

theorem runShootCount_keepsLine : KeepsLine runShootCount := onUnit_keepsLine fun _ _ s =>
  lineKept_ite (.refl s) (lineKept_ite (.refl s) (lineKept_ite (.refl s) ((modChan_lineKept _ _ s).answered _)))

theorem runHaltSoft_keepsLine : KeepsLine runHaltSoft := fun _ _ s =>
  (forEachFree_calm (fun n _ s => softHalt_calm n s) s).lineKept

theorem runHaltHard_keepsLine : KeepsLine runHaltHard := fun _ _ s =>
  (forEachFree_calm (fun n _ s => hardHalt_calm n s) s).lineKept

theorem runSetEject_keepsLine : KeepsLine runSetEject := fun _ _ s => lineKept_ite (.of_eq rfl rfl rfl) (.refl s)

/-! ## Ports and packers -/

theorem runSetPort_keepsLine : KeepsLine runSetPort := onUnit_keepsLine fun _ args s => by
  dsimp only
  split
  · exact .refl s
  · exact lineKept_ite (.refl s) (lineKept_ite (.refl s) ((modPort_lineKept _ _ s).answered _))

theorem runEnablePort_keepsLine : KeepsLine runEnablePort := onUnit_keepsLine fun _ _ s =>
  lineKept_ite (.refl s) (settleAs_calm _ _ s).lineKept

theorem runDisablePort_keepsLine : KeepsLine runDisablePort := onUnit_keepsLine fun _ _ s =>
  lineKept_ite (.refl s) (settleAs_calm _ _ s).lineKept

theorem resetPort_calm (n : Unit8) (s : State) : Calm s (resetPort n s) :=
  (hardHalt_calm n s).trans ((modChan_calm _ _ _).trans ((modPort_calm _ _ _).trans (settleAs_calm _ _ _)))

theorem runResetPort_keepsLine : KeepsLine runResetPort := onUnit_keepsLine fun n _ s => (resetPort_calm n s).lineKept

theorem setConversion_lineKept (n : Unit8) (c : Conversion) (s : State) : LineKept s (setConversion n c s).1 :=
  lineKept_ite (.refl s) (lineKept_ite (.refl s) (.of_eq rfl rfl rfl))

theorem runSetConversion_keepsLine : KeepsLine runSetConversion := onUnit_keepsLine fun _ args s => by
  split
  · exact setConversion_lineKept _ _ s
  · exact .refl s

theorem runSetPreview_keepsLine : KeepsLine runSetPreview := onUnit_keepsLine fun _ args s => by
  dsimp only
  split
  · exact .refl s
  · exact lineKept_ite (.of_eq rfl rfl rfl) (.refl s)

/-! ## Store -/

theorem runReadFrame_keepsLine : KeepsLine runReadFrame := onFrame_keepsLine fun _ _ _ s => .refl s

theorem runHold_keepsLine : KeepsLine runHold := onFrame_keepsLine fun _ _ _ s =>
  lineKept_ite (.refl s) (modRecord_lineKept _ _ s)

theorem runRelease_keepsLine : KeepsLine runRelease := onFrame_keepsLine fun _ _ _ s =>
  lineKept_ite (modRecord_lineKept _ _ s) (.refl s)

theorem runDiscard_keepsLine : KeepsLine runDiscard := onFrame_keepsLine fun _ _ _ s =>
  lineKept_ite (.refl s) (lineKept_ite (.refl s) (freeRecord_calm _ s).lineKept)

theorem runClearStore_keepsLine : KeepsLine runClearStore := fun _ _ s =>
  ((foldl_calm (clearableHandles s) (fun h _ s => freeRecord_calm h s) s).trans
    (setOffice_calm (n := .storeCleared) (by decide) _)).lineKept

theorem runSetLowWater_keepsLine : KeepsLine runSetLowWater := fun _ _ s => lineKept_ite (.of_eq rfl rfl rfl) (.refl s)

/-! ## Link, forwarder and notices -/

theorem runRetrainLink_keepsLine : KeepsLine runRetrainLink := fun m _ s => by
  cases m with
  | line => exact retrainNow_lineKept s
  | office => exact lineKept_ite (.refl s) (.of_eq rfl rfl rfl)

theorem runCredit_keepsLine : KeepsLine runCredit := fun _ _ s =>
  lineKept_ite (.refl s) (lineKept_ite (.of_eq rfl rfl rfl) (.of_eq rfl rfl rfl))

theorem runPull_keepsLine : KeepsLine runPull := onFrame_keepsLine fun _ _ _ s =>
  lineKept_ite (.refl s) (lineKept_ite (.refl s) (lineKept_ite (joinPull_calm _ s).lineKept (modRecord_lineKept _ _ s)))

theorem abandonPull_lineKept (h : Handle) (s : State) : LineKept s (abandonPull h s) :=
  (modFwd_lineKept _ s).trans (modRecord_lineKept _ _ _)

theorem runCancelPull_keepsLine : KeepsLine runCancelPull := onFrame_keepsLine fun _ r _ s => by
  cases r.fullState with
  | none => exact .refl s
  | sent => exact .refl s
  | await => exact modRecord_lineKept _ _ s
  | queued => exact (modFwd_lineKept _ s).trans (modRecord_lineKept _ _ _)
  | sending => exact abandonPull_lineKept _ s

theorem runSetAutoFull_keepsLine : KeepsLine runSetAutoFull := onUnit_keepsLine fun _ args s => by
  split
  · exact .refl s
  · exact .of_eq rfl rfl rfl

theorem runReadStatus_keepsLine : KeepsLine runReadStatus := fun m _ s => by
  cases m <;> exact .of_eq rfl rfl rfl

theorem runSetNoticeMask_keepsLine : KeepsLine runSetNoticeMask := fun m _ s => by
  cases m with
  | line => exact .of_eq rfl rfl rfl
  | office => exact (callOffice_calm _ _).lineKept.before (.of_eq rfl rfl rfl)

/-! ## The two ways in -/

/-- A request whose rule keeps the bounds keeps them by the dispatcher, in every answer. -/
theorem serve_lineOk {found : Option OpSpec} (run : ∀ o, found = some o → KeepsLineOk o.run) (m : Master)
    (args : List Byte) {s : State} (h : LineOk s) : LineOk (serve found m args s).1 := by
  unfold serve
  split
  · exact h
  · split
    · exact h
    · split
      · exact h
      · exact run _ rfl m args s h

theorem beginTransaction_lineKept (bytes : List Byte) (s : State) : LineKept s (beginTransaction bytes s) := by
  unfold beginTransaction
  dsimp only
  split <;> exact .of_eq rfl rfl rfl

theorem localRequest_lineOk {found : Option OpSpec} (run : ∀ o, found = some o → KeepsLineOk o.run) (args : List Byte)
    {s : State} (h : LineOk s) : LineOk (localRequest found args s) := by
  unfold localRequest
  dsimp only
  split
  · exact (LineKept.of_eq rfl rfl rfl).ok (serve_lineOk run .line args ((LineKept.of_eq rfl rfl rfl).ok h))
  · exact (LineKept.of_eq rfl rfl rfl).ok h

theorem remoteRequest_lineOk {found : Option OpSpec} (run : ∀ o, found = some o → KeepsLineOk o.run) (tag : BitVec 16)
    (op : Byte) (args : List Byte) {s : State} (h : LineOk s) : LineOk (remoteRequest found tag op args s) := by
  unfold remoteRequest
  split
  · exact ((countFwd_lineKept _ s).trans (setOffice_lineKept _ _)).ok h
  · exact (modFwd_lineKept _ _).ok (serve_lineOk run .office args ((modFwd_lineKept _ s).ok h))

theorem receiveRequest_lineOk {found : Option OpSpec} (run : ∀ o, found = some o → KeepsLineOk o.run) (tag : BitVec 16)
    (op : Byte) (args : List Byte) {s : State} (h : LineOk s) : LineOk (receiveRequest found tag op args s) := by
  unfold receiveRequest
  split
  · dsimp only
    split
    · exact remoteRequest_lineOk run tag op args (((modLnk_lineKept _ s).trans (countLnk_lineKept _ _)).ok h)
    · exact ((modLnk_lineKept _ s).trans (countLnk_lineKept _ _)).ok h
  · exact h

theorem takeRequest_lineOk {o : OpSpec} (run : KeepsLineOk o.run) (v : Via) (args : List Byte) {s : State}
    (h : LineOk s) : LineOk (takeRequest o v args s) := by
  have found : ∀ p, some o = some p → KeepsLineOk p.run := fun p e => Option.some.inj e ▸ run
  cases v with
  | fall => exact (beginTransaction_lineKept _ s).ok h
  | line => exact localRequest_lineOk found args h
  | office tag => exact receiveRequest_lineOk found tag _ args h

end Sys2Proof.Machine
end

section
/-! PROOFS. What keeps the bounds of the line side where it does change it (O56): the position unit, count events, items made, and
the settings. -/

namespace Sys2Proof.Machine

/-! ## Notices and POSU's operations, said once -/

/-- A flag for OFFICE changes nothing but FWD and RNU. -/
theorem setOffice_rest (n : Notice) (s : State) :
    setOffice n s = { s with fwd := (setOffice n s).fwd, rnu := (setOffice n s).rnu } := by
  unfold setOffice callOffice
  split
  · unfold offerNotice
    split <;> rfl
  · rfl

/-- A flag in both views changes nothing but FWD and RNU. -/
theorem setBoth_rest (n : Notice) (s : State) :
    setBoth n s = { s with fwd := (setBoth n s).fwd, rnu := (setBoth n s).rnu } := setOffice_rest n (setLine n s)

/-- With no switch pending nothing ends. -/
theorem endSwitch_none {s : State} (h : s.posu.pendingSwitch = none) (o : SwitchOutcome) : endSwitch o s = s := by
  simp only [endSwitch, h]

/-- The end of a pending switch (R12). -/
theorem endSwitch_some {s : State} {p : PendingSwitch} (h : s.posu.pendingSwitch = some p) (o : SwitchOutcome) :
    endSwitch o s = setLine (if o = .done then .switchDone else .switchFailed) (s.setPosu { s.posu with
      pendingSwitch := none, lastSwitch := some { target := p.target, outcome := o, stamp := s.stamp } }) := by
  simp only [endSwitch, h]

/-- The last switch outcome after the end of a switch that may be pending. -/
def outcomeAfter (o : SwitchOutcome) (s : State) : Option SwitchRecord :=
  match s.posu.pendingSwitch with
  | some p => some { target := p.target, outcome := o, stamp := s.stamp }
  | none => s.posu.lastSwitch

/-- POSU after the end of a switch, one pending or none. -/
theorem endSwitch_posu (o : SwitchOutcome) (s : State) :
    (endSwitch o s).posu = { s.posu with pendingSwitch := none, lastSwitch := outcomeAfter o s } := by
  unfold outcomeAfter
  cases h : s.posu.pendingSwitch with
  | none =>
    rw [endSwitch_none h]
    change s.posu = { s.posu with pendingSwitch := none }
    rw [← h]
  | some p => rw [endSwitch_some h]; rfl

/-- The end of a switch changes the rest in nothing but the LINE view. -/
theorem endSwitch_rest (o : SwitchOutcome) (s : State) :
    endSwitch o s = { s with posu := (endSwitch o s).posu, rnu := (endSwitch o s).rnu } := by
  cases h : s.posu.pendingSwitch with
  | none => rw [endSwitch_none h]
  | some p => rw [endSwitch_some h]; rfl

theorem endSwitch_tableKept (o : SwitchOutcome) (s : State) : TableKept s (endSwitch o s) := by
  rw [endSwitch_rest]
  refine ⟨?_, Nat.le_refl _⟩
  simp only [State.tableSide, endSwitch_posu]

/-! ## The bounds of POSU -/

/-- A change that leaves the table keeps the bounds where it keeps those of POSU. -/
theorem TableKept.lineOk {s t : State} (k : TableKept s t) (p : PositionOk s.posu → PositionOk t.posu) (h : LineOk s) :
    LineOk t := ⟨p h.1, k.ok h.2⟩

theorem setPosu_lineOk {s : State} {p : Posu} (hp : p.position = s.posu.position) (h : LineOk s) (ok : PositionOk p) :
    LineOk (s.setPosu p) := by
  refine TableKept.lineOk (s := s) (t := s.setPosu p) ⟨?_, Nat.le_refl _⟩ (fun _ => ok) h
  simp only [State.tableSide, State.setPosu_posu, State.setPosu_capu, State.setPosu_itab, hp]

/-- Where no switch is pending there is nothing to bound of one. -/
theorem PositionOk.noSwitch {p : Posu} (h : PositionOk p) (r : Option SwitchRecord) :
    PositionOk { p with pendingSwitch := none, lastSwitch := r } := ⟨h.1, nofun, h.2.2⟩

/-- A pending switch to another source, with a count in its range. -/
theorem PositionOk.withSwitch {p : Posu} (h : PositionOk p) {w : PendingSwitch} (hw : w.target ≠ p.active)
    (hc : w.count ≤ p.settings.qualCount) : PositionOk { p with pendingSwitch := some w } :=
  ⟨h.1, fun _ e => Option.some.inj e ▸ ⟨hw, hc⟩, h.2.2⟩

/-- A synthetic speed that SET_SPEED could write. -/
theorem PositionOk.withSpeed {p : Posu} (h : PositionOk p) {v : Nat} (hv : v = 0 ∨ (10 ≤ v ∧ v ≤ 4000000)) (n : Nat) :
    PositionOk { p with synthSpeed := v, genPhase := n } := by
  obtain ⟨settings, pending, running, monitor, length, measured, -⟩ := h
  exact ⟨settings, pending, running, monitor, length, measured, hv⟩

/-- The monitor of a source that has one. -/
theorem PositionOk.withMonitor {p : Posu} (h : PositionOk p) {m : Option Monitor} (hm : m.isSome = p.monitor.isSome)
    (hb : ∀ x, m = some x → x.score ≤ 15 ∧ x.tally ≤ 1023 ∧ (125 : Int) ∣ x.reference) :
    PositionOk { p with monitor := m } := by
  obtain ⟨settings, pending, running, -, rest⟩ := h
  exact ⟨settings, pending, by rw [hm]; exact running, hb, rest⟩

theorem endSwitch_lineOk (o : SwitchOutcome) {s : State} (h : LineOk s) : LineOk (endSwitch o s) :=
  (endSwitch_tableKept o s).lineOk (fun hp => endSwitch_posu o s ▸ hp.noSwitch _) h

/-- A speed of 0 or between the two bounds of R4. -/
theorem setSpeedTo_lineOk {v : Nat} (hv : v = 0 ∨ (10 ≤ v ∧ v ≤ 4000000)) {s : State} (h : LineOk s) :
    LineOk (setSpeedTo v s) :=
  setPosu_lineOk rfl h (h.1.withSpeed hv _)

/-- A reference speed is a whole number of 125, so the speed loaded from it is one that SET_SPEED could write. -/
theorem holdoverSpeed_bounds {r : Int} (h : (125 : Int) ∣ r) :
    holdoverSpeed r = 0 ∨ (10 ≤ holdoverSpeed r ∧ holdoverSpeed r ≤ 4000000) := by
  obtain ⟨k, rfl⟩ := h
  unfold holdoverSpeed
  omega

/-- POSU after a failover (R16). -/
theorem failover_posu (cause : FailCause) (m : Monitor) (s : State) :
    (failover cause m s).posu = { s.posu with
      active := .synth, synthSpeed := holdoverSpeed m.reference, genPhase := 0, pendingSwitch := none, monitor := none
      lastSwitch := outcomeAfter .cancelledByFailover s
      lastFailover := some { source := s.posu.active, cause := cause, stamp := s.stamp, speed := holdoverSpeed m.reference } } := by
  unfold failover
  rw [setBoth_rest]
  simp only [State.setPosu_posu, endSwitch_posu]
  rfl

/-- A failover changes the rest in nothing but FWD and RNU. -/
theorem failover_rest (cause : FailCause) (m : Monitor) (s : State) : failover cause m s =
    { s with posu := (failover cause m s).posu, fwd := (failover cause m s).fwd, rnu := (failover cause m s).rnu } := by
  unfold failover
  rw [setBoth_rest, endSwitch_rest]
  rfl

theorem failover_lineOk (cause : FailCause) {m : Monitor} (hm : (125 : Int) ∣ m.reference) {s : State} (h : LineOk s) :
    LineOk (failover cause m s) := by
  have table : TableKept s (failover cause m s) := by
    rw [failover_rest]
    refine ⟨?_, Nat.le_refl _⟩
    simp only [State.tableSide, failover_posu]
  refine table.lineOk (fun hp => ?_) h
  obtain ⟨settings, -, -, -, length, measured, -⟩ := hp
  rw [failover_posu]
  exact ⟨settings, nofun, by simp, nofun, length, measured, holdoverSpeed_bounds hm⟩

/-! ## Items -/

theorem askClose_calm (n : Nat) (e : Pos) (s : State) (ch : Unit8) : Calm s (askClose n e s ch) := by
  unfold askClose
  split
  · exact .refl s
  · split
    · exact scheduleClose_calm _ _ _ s
    · exact .refl s

theorem endItem_calm (n : Nat) (e : Pos) (long : Bool) (s : State) : Calm s (endItem n e long s) := by
  unfold endItem
  extract_lets s1
  have h1 : Calm s s1 := modItem_calm n (by intro; rfl) s
  clear_value s1
  exact h1.trans ((foldl_calm units (fun ch _ s => askClose_calm n e s ch) s1).trans (completeIfSettled_calm _ _))

theorem enterChannel_calm (it : Item) (s : State) (ch : Unit8) : Calm s (enterChannel it s ch) := by
  unfold enterChannel
  split
  · extract_lets s1 offset s2
    have h1 : Calm s s1 := modItem_calm _ (by intro; rfl) s
    have h2 : Calm s s2 := h1.trans (scheduleShot_calm _ _ _ _ s1)
    clear_value s1 s2
    cases (s.port ch).kind with
    | area => exact h1.trans (scheduleShot_calm _ _ _ _ s1)
    | scan =>
      cases it.endPos with
      | none => exact h2
      | some e => exact h2.trans (scheduleClose_calm _ _ _ s2)
  · exact .refl s

theorem ejectRequest_lineKept (s : State) : LineKept s (ejectRequest s) := .of_eq rfl rfl rfl

theorem applyPolicies_calm (handles : List Handle) (s : State) : Calm s (applyPolicies handles s) :=
  forEachFree_calm (fun h _ s => applyAutoFull_calm false h s) s

theorem retireItem_lineKept (it : Item) (s : State) : LineKept s (retireItem it s) := by
  unfold retireItem
  generalize finalVerdict s.itab.geometry it = verdict
  obtain ⟨v, src⟩ := verdict
  dsimp -zeta only
  extract_lets s2 s3 s4 named s5 s6 s7 s8
  have h3 : LineKept s s3 := (leaveQueues_calm _ s).lineKept.trans (removeItem_lineKept _ _)
  clear_value s3
  have h4 : LineKept s s4 := by
    change LineKept s (if _ then _ else _)
    split
    · exact h3.trans (ejectRequest_lineKept s3)
    · exact h3
  clear_value s4
  have h6 : LineKept s s6 := h4.trans ((writeCopies_calm _ _ _ _ s4).trans (applyPolicies_calm named s5)).lineKept
  have h7 : LineKept s s7 := h6.trans (queueMessage_calm _ _ s6).lineKept
  clear_value s7
  have h8 : LineKept s s8 := by
    change LineKept s (if _ then _ else _)
    split
    · exact h7.trans (setOffice_lineKept _ s7)
    · exact h7
  clear_value s8
  exact h8.trans ⟨rfl, rfl, Nat.le_refl _⟩

/-- The numbers run from 1 to 16,777,215 (R32). -/
theorem nextNumberAfter_bounds {n : Nat} (h1 : 1 ≤ n) (h2 : n ≤ 16777215) :
    1 ≤ nextNumberAfter n ∧ nextNumberAfter n ≤ 16777215 := by
  unfold nextNumberAfter lastNumber
  split <;> omega

/-- An item joins a table that has a place for it. -/
theorem appendItem_lineOk (it : Item) {s : State} (room : s.itab.items.length < 64) (h : LineOk s) :
    LineOk (appendItem it s) := by
  unfold appendItem
  extract_lets t s1
  refine (foldl_calm units (fun ch _ s => enterChannel_calm it s ch) s1).lineKept.ok ⟨h.1, ?_⟩
  obtain ⟨fifo, dropped, -, blind, -, next1, next2, rest⟩ := h.2
  obtain ⟨after1, after2⟩ := nextNumberAfter_bounds next1 next2
  refine ⟨fifo, dropped, ?_, blind, Nat.min_le_left _ _, after1, after2, rest⟩
  simp only [s1, t, State.setItab_itab, List.length_append, List.length_singleton]
  omega

theorem forcedEnd_calm (it : Item) (s : State) : Calm s (forcedEnd it s) := endItem_calm _ _ _ s

theorem createFromEdge_lineOk (p : Pos) {s : State} (room : s.itab.items.length < 64) (h : LineOk s) :
    LineOk (createFromEdge p s) := by
  have h1 := appendItem_lineOk (sensorItem s.itab p) room h
  unfold createFromEdge
  dsimp only
  split
  · exact h1
  · split
    · exact (retireItem_lineKept _ _).ok h1
    · split
      · exact (forcedEnd_calm _ _).lineKept.ok h1
      · exact h1

theorem createDeclared_lineOk (it : Item) {s : State} (room : s.itab.items.length < 64) (h : LineOk s) :
    LineOk (createDeclared it s) :=
  (completeIfSettled_calm _ _).lineKept.ok (appendItem_lineOk it room h)

/-- An overflow edge: the blind list takes the position in its place, or counts it lost (R44). -/
theorem offerBlind_lineOk (p : Pos) {s : State} (h : LineOk s) : LineOk (offerBlind p s) := by
  unfold offerBlind
  split
  · exact h
  · split
    · rename_i room
      obtain ⟨fifo, dropped, items, -, assigned, next1, next2, gap, len, clears, dist, order⟩ := h.2
      refine ⟨h.1, fifo, dropped, items, ?_, assigned, next1, next2, gap, len, clears, dist, placeBlind_order p order⟩
      exact (placeBlind_length _ _ _).trans_le room
    · exact (setBoth_lineKept _ _).ok (LineKept.ok (s := s) ⟨rfl, rfl, Nat.le_refl _⟩ h)

theorem leadingEdge_lineOk (p : Pos) {s : State} (h : LineOk s) : LineOk (leadingEdge p s) := by
  unfold leadingEdge
  dsimp only
  split
  · exact LineKept.ok (s := s) ⟨rfl, rfl, Nat.le_refl _⟩ h
  · split
    · exact offerBlind_lineOk _ ((setBoth_lineKept _ _).ok (LineKept.ok (s := s) ⟨rfl, rfl, Nat.le_refl _⟩ h))
    · rename_i room
      exact createFromEdge_lineOk p (Nat.not_le.1 room) (LineKept.ok (s := s) ⟨rfl, rfl, Nat.le_refl _⟩ h)

theorem trailingEdge_lineKept (q : Pos) (s : State) : LineKept s (trailingEdge q s) := by
  unfold trailingEdge
  split
  · exact ⟨rfl, rfl, Nat.le_refl _⟩
  · split
    · exact .refl s
    · split
      · exact (endItem_calm _ _ _ s).lineKept
      · exact .refl s

/-! ## Capture -/

theorem modInput_lineKept (i : CaptureInput) (f : InputUnit → InputUnit) (s : State) : LineKept s (modInput i f s) := by
  cases i <;> exact ⟨rfl, rfl, Nat.le_refl _⟩

/-- The aux FIFO takes a record while it has a place, and else counts it (R27). -/
theorem offerCapture_lineOk (r : CaptureRecord) {s : State} (h : LineOk s) : LineOk (offerCapture r s) := by
  obtain ⟨posu, fifo, dropped, table⟩ := h
  unfold offerCapture
  split
  · rename_i room
    refine ⟨posu, ?_, dropped, table⟩
    rw [State.setCapu_capu, List.length_append]
    exact room
  · exact (setLine_lineKept _ _).ok ⟨posu, fifo, Nat.min_le_left _ _, table⟩

theorem auxEdge_lineOk (a : AuxInput) (role : Role) (e : Edge) (pos : Pos) (stamp : Stamp) {s : State} (h : LineOk s) :
    LineOk (auxEdge a role e pos stamp s) := by
  cases role with
  | capture => exact offerCapture_lineOk _ h
  | untilEdge => exact (untilEdge_calm _ _ _ s).lineKept.ok h
  | both => exact (untilEdge_calm _ _ _ _).lineKept.ok (offerCapture_lineOk _ h)

theorem stopAsserted_lineOk {s : State} (h : LineOk s) : LineOk (stopAsserted s) :=
  ((setBoth_lineKept _ _).trans (stopHalt_calm _).lineKept).ok (endSwitch_lineOk _ (setSpeedTo_lineOk (Or.inl rfl) h))

theorem classify_lineOk (i : CaptureInput) (l : Level) (pos : Pos) (stamp : Stamp) {s : State} (h : LineOk s) :
    LineOk (classify i l pos stamp s) := by
  unfold classify
  dsimp only
  split
  · cases i with
    | item =>
      dsimp only
      split
      · exact leadingEdge_lineOk pos h
      · exact (trailingEdge_lineKept pos s).ok h
    | stop =>
      dsimp only
      split
      · exact stopAsserted_lineOk h
      · exact h
    | aux1 => exact auxEdge_lineOk _ _ _ _ _ h
    | aux2 => exact auxEdge_lineOk _ _ _ _ _ h
  · exact h

theorem acceptEdge_lineOk (i : CaptureInput) (l : Level) (pos : Pos) (stamp : Stamp) {s : State} (h : LineOk s) :
    LineOk (acceptEdge i l pos stamp s) := classify_lineOk i l pos stamp ((modInput_lineKept i _ s).ok h)

theorem takePinChange_lineOk (i : CaptureInput) (l : Level) {s : State} (h : LineOk s) : LineOk (takePinChange i l s) := by
  unfold takePinChange
  extract_lets s1 u
  have h1 : LineOk s1 := (LineKept.of_eq rfl rfl rfl).ok h
  split
  · exact h1
  · split
    · exact (modInput_lineKept i _ s1).ok h1
    · split
      · exact h1
      · split
        · exact acceptEdge_lineOk i l _ _ h1
        · exact (modInput_lineKept i _ s1).ok h1

theorem takeFilterExpiry_lineOk (i : CaptureInput) {s : State} (h : LineOk s) : LineOk (takeFilterExpiry i s) := by
  unfold takeFilterExpiry
  split
  · exact h
  · split
    · exact h
    · exact acceptEdge_lineOk _ _ _ _ ((reachTime_lineKept _ s).ok h)

end Sys2Proof.Machine
end

section
/-! PROOFS. Count events, the sources, and the settings of the line side; and with them every step (O56). -/

namespace Sys2Proof.Machine

/-! ## Count events -/

/-- A forward count: the position has moved on by one, and the running interval counts it (R1, R13). -/
def countedOn (s : State) : State :=
  s.setPosu { s.posu with position := s.posu.position + 1, netCounts := s.posu.netCounts + 1 }

/-- A forward count event does what there is to do at the new position, in a free order. -/
theorem countEvent_true (s : State) : countEvent true s =
    forEachFree (allWork.filter (hasWork (countedOn s) (s.posu.position + 1))) (doWork (s.posu.position + 1)) (countedOn s) :=
  rfl

/-- A backward count event moves the position and sorts the blind list from it. -/
theorem countEvent_false (s : State) : countEvent false s =
    (s.setPosu { s.posu with position := s.posu.position - 1, netCounts := s.posu.netCounts - 1 }).setItab
      { s.itab with blind := sortBlind (s.posu.position - 1) s.itab.blind } := rfl

/-- The state with every blind entry at `p` taken off the list. -/
def dropBlind (p : Pos) (s : State) : State := s.setItab { s.itab with blind := s.itab.blind.filter (· ≠ p) }

/-- What a work of a count event that reaches `p` may change of the line side: items may leave, and so may blind entries at `p`. -/
structure WorkKept (p : Pos) (s t : State) : Prop where
  kept : LineKept (dropBlind p s) (dropBlind p t)
  blind : t.itab.blind ⊆ s.itab.blind

theorem WorkKept.refl (p : Pos) (s : State) : WorkKept p s s := ⟨.refl _, fun _ h => h⟩

theorem WorkKept.trans {p : Pos} {a b c : State} (h : WorkKept p a b) (k : WorkKept p b c) : WorkKept p a c :=
  ⟨h.kept.trans k.kept, fun _ m => h.blind (k.blind m)⟩

theorem LineKept.work {s t : State} (k : LineKept s t) (p : Pos) : WorkKept p s t := by
  obtain ⟨posu, side, items⟩ := k
  simp only [State.tableSide, Prod.mk.injEq] at side
  obtain ⟨position, fifo, dropped, blind, assigned, next, geometry⟩ := side
  refine ⟨⟨posu, ?_, items⟩, by rw [blind]; exact fun _ h => h⟩
  simp only [State.tableSide, dropBlind, State.setItab_posu, State.setItab_capu, State.setItab_itab, position, fifo, dropped,
    blind, assigned, next, geometry]

theorem choseOrder_lineKept (k : Nat) (s : State) : LineKept s (s.choseOrder k) := .of_eq rfl rfl rfl

theorem blindRequests_lineKept (n : Nat) (s : State) : LineKept s (blindRequests n s) := by
  induction n generalizing s with
  | zero => exact .refl s
  | succ n ih => exact (ih _).before ⟨rfl, rfl, Nat.le_refl _⟩

/-- The entries at `p` leave the list with their eject requests (R45). -/
theorem reachBlind_eq (p : Pos) (s : State) : reachBlind p s = blindRequests (s.itab.blind.count p) (dropBlind p s) := by
  have e : (fun q : Pos => q != p) = fun q => decide (q ≠ p) := by
    funext q
    by_cases h : q = p <;> simp [h]
  unfold reachBlind dropBlind
  rw [e]

theorem reachBlind_blind (p : Pos) (s : State) : (reachBlind p s).itab.blind = s.itab.blind.filter (· ≠ p) := by
  rw [reachBlind_eq]
  have side := (blindRequests_lineKept (s.itab.blind.count p) (dropBlind p s)).table.side
  simp only [State.tableSide, Prod.mk.injEq] at side
  exact side.2.2.2.1

/-- After the blind work no entry stands at `p`. -/
theorem reachBlind_notMem (p : Pos) (s : State) : p ∉ (reachBlind p s).itab.blind := by
  rw [reachBlind_blind]
  simp

theorem reachBlind_work (p : Pos) (s : State) : WorkKept p s (reachBlind p s) := by
  have drop : WorkKept p s (dropBlind p s) := by
    refine ⟨?_, List.filter_subset_self _⟩
    have e : dropBlind p (dropBlind p s) = dropBlind p s := by
      simp [dropBlind, State.setItab, List.filter_filter]
    rw [e]
    exact .refl _
  rw [reachBlind_eq]
  exact drop.trans ((blindRequests_lineKept _ _).work p)

theorem reachForcedEnd_calm (p : Pos) (s : State) : Calm s (reachForcedEnd p s) := by
  unfold reachForcedEnd
  split
  · exact .refl s
  · split
    · exact forcedEnd_calm _ s
    · exact .refl s

theorem reachEject_lineKept (p : Pos) (s : State) : LineKept s (reachEject p s) := by
  unfold reachEject
  split
  · exact .refl s
  · split
    · exact retireItem_lineKept _ s
    · exact .refl s

theorem doWork_work (p : Pos) (w : CountWork) (s : State) : WorkKept p s (doWork p w s) := by
  cases w with
  | forcedEnd => exact (reachForcedEnd_calm p s).lineKept.work p
  | blind => exact reachBlind_work p s
  | eject => exact (reachEject_lineKept p s).work p
  | channel n => exact (reachChannel_calm n p s).lineKept.work p

/-- Works done one after the other leave no blind entry at `p`, where the blind work is among them or no entry stood there. -/
theorem foldl_doWork_notMem (p : Pos) (l : List CountWork) (s : State) (h : .blind ∈ l ∨ p ∉ s.itab.blind) :
    p ∉ (l.foldl (fun s w => doWork p w s) s).itab.blind := by
  induction l generalizing s with
  | nil => exact h.resolve_left List.not_mem_nil
  | cons w t ih =>
    refine ih _ ?_
    rcases h with h | h
    · rcases List.mem_cons.1 h with rfl | h
      · exact Or.inr (reachBlind_notMem p s)
      · exact Or.inl h
    · exact Or.inr fun m => h ((doWork_work p w s).blind m)

/-- With no entry at `p` there is none to drop. -/
theorem dropBlind_of_notMem {p : Pos} {s : State} (h : p ∉ s.itab.blind) : dropBlind p s = s := by
  have e : s.itab.blind.filter (· ≠ p) = s.itab.blind :=
    List.filter_eq_self.2 fun q hq => decide_eq_true fun x => h (x ▸ hq)
  unfold dropBlind
  rw [e]
  rfl

/-- The order of the blind list passes on with the line: the entries ahead come nearer by one, and one at the new position
leaves. -/
theorem forwardCount_lineOk {s : State} (h : LineOk s) : LineOk (dropBlind (s.posu.position + 1) (countedOn s)) := by
  obtain ⟨fifo, dropped, items, blind, assigned, next1, next2, gap, len, clears, dist, order⟩ := h.2
  exact ⟨h.1, fifo, dropped, items, (List.length_filter_le _ _).trans blind, assigned, next1, next2, gap, len, clears, dist,
    order.forward⟩

theorem countEvent_lineOk (forward : Bool) {s : State} (h : LineOk s) : LineOk (countEvent forward s) := by
  cases forward with
  | false =>
    obtain ⟨fifo, dropped, items, blind, assigned, next1, next2, gap, len, clears, dist, -⟩ := h.2
    exact ⟨h.1, fifo, dropped, items, (sortBlind_perm _ _).length_eq.trans_le blind, assigned, next1, next2, gap, len,
      clears, dist, sortBlind_order _ _⟩
  | true =>
    have h1 := forwardCount_lineOk h
    rw [countEvent_true]
    generalize s.posu.position + 1 = p at h1 ⊢
    generalize countedOn s = s1 at h1 ⊢
    have kept : WorkKept p s1 (forEachFree (allWork.filter (hasWork s1 p)) (doWork p) s1) :=
      forEachFree_rel (.refl p) .trans (fun s k => (choseOrder_lineKept k s).work p)
        (fun w _ s => doWork_work p w s) s1
    have gone : p ∉ (forEachFree (allWork.filter (hasWork s1 p)) (doWork p) s1).itab.blind := by
      refine foldl_doWork_notMem p _ _ ?_
      rw [(arrange_perm _ _).mem_iff, List.mem_filter]
      by_cases m : p ∈ s1.itab.blind
      · exact Or.inl ⟨by decide, by simpa [hasWork] using m⟩
      · exact Or.inr m
    have ok := kept.kept.ok h1
    rwa [dropBlind_of_notMem gone] at ok

/-! ## Sources -/

/-- A count that works off the fault score keeps its bounds (R15). -/
theorem tallied_bounds {m : Monitor} (h : m.score ≤ 15 ∧ m.tally ≤ 1023 ∧ (125 : Int) ∣ m.reference) :
    m.tallied.score ≤ 15 ∧ m.tallied.tally ≤ 1023 ∧ (125 : Int) ∣ m.tallied.reference := by
  obtain ⟨score, tally, reference⟩ := h
  unfold Monitor.tallied
  split
  · exact ⟨(Nat.sub_le _ _).trans score, Nat.zero_le _, reference⟩
  · exact ⟨score, by dsimp only; omega, reference⟩

/-- The measured speed is a whole number of 125 (R13). -/
theorem PositionOk.measured_dvd {p : Posu} (h : PositionOk p) : (125 : Int) ∣ p.measuredSpeed := by
  obtain ⟨-, -, -, -, -, measured, -⟩ := h
  exact ⟨_, measured⟩

theorem monitorCount_lineOk (src : Source) {s : State} (h : LineOk s) : LineOk (monitorCount src s) := by
  refine setPosu_lineOk rfl h (h.1.withMonitor (by simp) fun x hx => ?_)
  obtain ⟨m, hm, rfl⟩ := Option.map_eq_some_iff.1 hx
  obtain ⟨-, -, -, monitor, -⟩ := h.1
  obtain ⟨score, tally, -⟩ := monitor m hm
  split
  · exact tallied_bounds ⟨score, tally, h.1.measured_dvd⟩
  · exact ⟨score, tally, h.1.measured_dvd⟩

/-- The completing count of a qualified switch makes its target active, and starts the monitor where the target has one. -/
theorem completeSwitch_lineOk (target : Source) (forward : Bool) {s : State} (h : LineOk s) :
    LineOk (completeSwitch target forward s) := by
  have h1 := endSwitch_lineOk .done h
  have none : (endSwitch .done s).posu.pendingSwitch = none := by rw [endSwitch_posu]
  unfold completeSwitch
  dsimp only
  generalize endSwitch .done s = s1 at h1 none
  refine countEvent_lineOk forward (setPosu_lineOk rfl h1 ?_)
  have dvd := h1.1.measured_dvd
  obtain ⟨settings, -, -, -, rest⟩ := h1.1
  refine ⟨settings, fun w e => ?_, ?_, fun m hm => ?_, rest⟩
  · rw [none] at e
    cases e
  · cases target <;> simp [startMonitor]
  · cases target <;> simp only [startMonitor, Option.some.injEq, reduceCtorEq] at hm <;> subst hm <;>
      exact ⟨Nat.zero_le _, Nat.zero_le _, dvd⟩

theorem qualifyCount_lineOk {p : PendingSwitch} (forward : Bool) {s : State} (hp : s.posu.pendingSwitch = some p)
    (h : LineOk s) : LineOk (qualifyCount p forward s) := by
  unfold qualifyCount
  split
  · exact completeSwitch_lineOk _ _ h
  · rename_i below
    have below : p.count < s.posu.settings.qualCount := by simpa [qualified] using below
    have target : p.target ≠ s.posu.active := (h.1.2.1 p hp).1
    refine setPosu_lineOk rfl h (h.1.withSwitch target ?_)
    cases forward
    · exact Nat.zero_le _
    · exact below

theorem sourceCount_lineOk (src : Source) (forward : Bool) {s : State} (h : LineOk s) :
    LineOk (sourceCount src forward s) := by
  unfold sourceCount
  split
  · exact countEvent_lineOk _ (monitorCount_lineOk _ h)
  · split
    · exact h
    · rename_i p hp
      split
      · exact qualifyCount_lineOk _ hp h
      · exact h

theorem quadFault_lineOk {s : State} (h : LineOk s) : LineOk (quadFault s) := by
  unfold quadFault
  split
  · split
    · exact h
    · rename_i m hm
      obtain ⟨⟨-, -, -, -, -, -, -, limit⟩, -, -, monitor, -⟩ := h.1
      obtain ⟨score, tally, dvd⟩ := monitor m hm
      dsimp only
      split
      · exact failover_lineOk _ dvd h
      · rename_i below
        refine setPosu_lineOk rfl h (h.1.withMonitor (by rw [hm]; rfl) fun x hx => ?_)
        cases hx
        exact ⟨by dsimp only; omega, tally, dvd⟩
  · split
    · exact h
    · rename_i p hp
      split
      · have target : p.target ≠ s.posu.active := (h.1.2.1 p hp).1
        exact setPosu_lineOk rfl h (h.1.withSwitch (w := { p with count := 0 }) target (Nat.zero_le _))
      · exact h

/-! ## Events of POSU -/

theorem takeQuadEdge_lineOk (a b : Bool) {s : State} (h : LineOk s) : LineOk (takeQuadEdge a b s) := by
  have h1 : LineOk { s with pins := { s.pins with encA := a, encB := b } } := (LineKept.of_eq rfl rfl rfl).ok h
  unfold takeQuadEdge
  dsimp only
  split
  · exact h1
  · split
    · exact h1
    · exact sourceCount_lineOk _ _ h1
    · exact quadFault_lineOk h1

theorem takeStepEdge_lineOk (dirHigh : Bool) {s : State} (h : LineOk s) : LineOk (takeStepEdge dirHigh s) := by
  unfold takeStepEdge
  split
  · exact h
  · exact sourceCount_lineOk _ _ h

theorem setPhase_lineKept (n : Nat) (s : State) : LineKept s (s.setPosu { s.posu with genPhase := n }) :=
  ⟨rfl, rfl, Nat.le_refl _⟩

theorem takeGeneratorCount_lineOk {s : State} (h : LineOk s) : LineOk (takeGeneratorCount s) := by
  unfold takeGeneratorCount
  split
  · exact h
  · split
    · exact h
    · extract_lets s1
      have h1 : LineOk s1 := by
        change LineOk (if _ then _ else _)
        split
        · exact h
        · exact (elapse_lineKept _ s).ok h
      exact sourceCount_lineOk _ _ ((setPhase_lineKept _ s1).ok h1)

theorem takeSwitchDeadline_lineOk {s : State} (h : LineOk s) : LineOk (takeSwitchDeadline s) := by
  unfold takeSwitchDeadline
  split
  · exact h
  · split
    · exact h
    · exact endSwitch_lineOk _ ((reachTime_lineKept _ s).ok h)

theorem takeSilenceExpiry_lineOk {s : State} (h : LineOk s) : LineOk (takeSilenceExpiry s) := by
  unfold takeSilenceExpiry
  split
  · exact h
  · rename_i m hm
    split
    · exact h
    · obtain ⟨-, -, -, monitor, -⟩ := h.1
      exact failover_lineOk _ (monitor m (Option.filter_eq_some_iff.1 hm).1).2.2 ((reachTime_lineKept _ s).ok h)

theorem takeIntervalEnd_lineOk {s : State} (h : LineOk s) : LineOk (takeIntervalEnd s) := by
  unfold takeIntervalEnd
  split
  · exact h
  · extract_lets s1 kept
    have h1 : LineOk s1 := (reachTime_lineKept _ s).ok h
    clear_value s1
    obtain ⟨settings, pending, running, monitor, length, -, speed⟩ := h1.1
    have len : kept.length = 8 := by simp [kept, length]
    exact setPosu_lineOk rfl h1 ⟨settings, pending, running, monitor, len, rfl, speed⟩

/-! ## Settings -/

/-- A range test passed. -/
theorem within_iff {lo hi v : Nat} : within lo hi v = true ↔ lo ≤ v ∧ v ≤ hi := by simp [within]

theorem setPositionConfig_lineOk {g : PositionSettings} {s : State}
    (hg : 16 ≤ g.qualCount ∧ g.qualCount ≤ 4096 ∧ 10 ≤ g.switchLimit ∧ g.switchLimit ≤ 10000 ∧ 1 ≤ g.silenceWindow ∧
      g.silenceWindow ≤ 1000 ∧ 1 ≤ g.faultLimit ∧ g.faultLimit ≤ 15) (h : LineOk s) :
    LineOk (setPositionConfig g s).1 := by
  unfold setPositionConfig
  dsimp only
  split
  · exact h
  · obtain ⟨-, pending, running⟩ := h.1
    refine setPosu_lineOk rfl h ⟨hg, fun w e => ?_, running⟩
    obtain ⟨p, hp, rfl⟩ := Option.map_eq_some_iff.1 e
    refine ⟨(pending p hp).1, ?_⟩
    unfold PendingSwitch.requalified
    dsimp only
    split
    · exact Nat.le_refl _
    · exact Nat.min_le_right _ _

theorem runSetPositionConfig_ok : KeepsLineOk runSetPositionConfig := fun _ args s h => by
  unfold runSetPositionConfig
  extract_lets qual limit silence faults
  split
  · split
    · rename_i range
      simp only [Bool.and_eq_true, within_iff, and_assoc] at range
      exact setPositionConfig_lineOk range h
    · exact h
  · exact h

theorem beginSwitch_lineOk {target : Source} {s : State} (ht : s.posu.active ≠ target) (h : LineOk s) :
    LineOk (beginSwitch target s) := by
  have h1 := endSwitch_lineOk .superseded h
  refine setPosu_lineOk rfl h1 (h1.1.withSwitch ?_ ?_)
  · rw [endSwitch_posu]
    exact ht.symm
  · dsimp only
    split
    · exact Nat.le_refl _
    · exact Nat.zero_le _

theorem runSelectSource_ok : KeepsLineOk runSelectSource := fun _ args s h => by
  unfold runSelectSource
  split
  · exact h
  · split
    · split
      · exact h
      · exact endSwitch_lineOk _ h
    · rename_i other
      exact beginSwitch_lineOk other h

theorem runAbortSwitch_ok : KeepsLineOk runAbortSwitch := fun _ _ s h => by
  unfold runAbortSwitch
  split
  · exact h
  · exact endSwitch_lineOk _ h

theorem runSetSpeed_ok : KeepsLineOk runSetSpeed := fun _ args s h => by
  unfold runSetSpeed
  extract_lets v w
  split
  · rename_i range
    exact setSpeedTo_lineOk (range.imp_right within_iff.1) h
  · refine setSpeedTo_lineOk (Or.inr ?_) h
    change 10 ≤ (if _ then _ else _) ∧ (if _ then _ else _) ≤ _
    split <;> decide

theorem runReadCapture_ok : KeepsLineOk runReadCapture := fun _ _ s h => by
  obtain ⟨posu, fifo, -, table⟩ := h
  have h1 : LineOk (s.setCapu { s.capu with fifo := s.capu.fifo.tail, dropped := 0 }) :=
    ⟨posu, by rw [State.setCapu_capu, List.length_tail]; omega, Nat.zero_le _, table⟩
  unfold runReadCapture
  dsimp only
  split <;> exact h1

theorem runSetItemGeometry_ok : KeepsLineOk runSetItemGeometry := fun _ args s h => by
  unfold runSetItemGeometry
  dsimp only
  split
  · exact h
  · split
    · split
      · rename_i range
        simp only [Bool.and_eq_true, within_iff, decide_eq_true_eq, and_assoc] at range
        obtain ⟨gap, -, len, -, -, dist, clears⟩ := range
        obtain ⟨fifo, dropped, items, blind, assigned, next1, next2, -, -, -, -, order⟩ := h.2
        exact ⟨h.1, fifo, dropped, items, blind, assigned, next1, next2, gap, len, by dsimp only [State.setItab]; omega, dist,
          order⟩
      · exact h
    · exact h

/-- A state in its bounds, with the answer given in it. -/
theorem LineOk.answered {s : State} (h : LineOk s) (a : Answer) : LineOk (s, a).1 := h

/-- A declaration that no case of R41 turns away finds a place in the table. -/
theorem room_of_declareRefusal {s : State} {start : Pos} {length : Nat} (h : declareRefusal s start length = none) :
    s.itab.items.length < 64 := by
  unfold declareRefusal at h
  dsimp only at h
  by_contra full
  rw [if_pos (Nat.not_lt.1 full)] at h
  split at h
  · cases h
  · split at h
    · cases h
    · split at h
      · cases h
      · split at h <;> cases h

theorem runDeclareItem_ok : KeepsLineOk runDeclareItem := fun _ args s h => by
  unfold runDeclareItem
  extract_lets start length tag it
  cases refusal : declareRefusal s start length with
  | some r => exact h
  | none => exact (createDeclared_lineOk it (room_of_declareRefusal refusal) h).answered _

/-! ## Device reset -/

theorem positionOk_reset : PositionOk {} :=
  ⟨by decide, nofun, by simp, nofun, rfl, rfl, Or.inl rfl⟩

theorem tableOk_reset (now : Pos) {c : Capu} (hf : c.fifo = []) (hd : c.dropped = 0) : TableOk now c {} := by
  refine ⟨?_, ?_, by decide, by decide, by decide, by decide, by decide, by decide, by decide, by decide, by decide,
    List.Pairwise.nil⟩
  · rw [hf]
    exact Nat.zero_le _
  · rw [hd]
    exact Nat.zero_le _

theorem deviceReset_lineOk (hold : ResetHold) (s : State) : LineOk (deviceReset hold s) :=
  ⟨positionOk_reset, tableOk_reset _ rfl rfl⟩

theorem runResetDevice_ok : KeepsLineOk runResetDevice := fun _ _ s _ => deviceReset_lineOk _ s

/-- The straps leave POSU in its bounds: a start-up switch goes to QUAD or STEP while SYNTH is active (R20). -/
theorem strapped_ok (a b : Bool) {p : Posu} (ha : p.active = .synth) (h : PositionOk p) : PositionOk (strapped a b p) := by
  cases a <;> cases b
  · exact h
  · exact h.withSwitch (by simp [ha]) (Nat.zero_le _)
  · exact h.withSwitch (by simp [ha]) (Nat.zero_le _)
  · exact (h.withSwitch (w := { target := .quad, count := 0, deadline := none }) (by simp [ha]) (Nat.zero_le _))

theorem bootUp_lineOk (s : State) : LineOk (bootUp s) := by
  unfold bootUp
  refine ((alignIfLit_lineKept _).trans (startFill_lineKept _)).ok ⟨?_, ?_⟩
  · exact strapped_ok _ _ rfl positionOk_reset
  · exact tableOk_reset _ rfl rfl

theorem takeResetEnd_lineOk (c : ResetCause) {s : State} (h : LineOk s) : LineOk (takeResetEnd c s) := by
  unfold takeResetEnd
  dsimp only
  split
  · split
    · exact (LineKept.of_eq rfl rfl rfl).ok h
    · exact bootUp_lineOk s
  · exact h

/-! ## Every step -/

/-- Every row of the command table keeps the bounds of the line side. -/
theorem opTable_keepsLineOk : ∀ o ∈ opTable, KeepsLineOk o.run := by
  simp only [opTable, List.forall_mem_append, List.forall_mem_cons, List.not_mem_nil, false_implies, implies_true, and_true]
  refine ⟨⟨⟨⟨⟨?_, ?_⟩, ?_⟩, ?_⟩, ?_⟩, ?_⟩
  · exact ⟨fun _ _ _ => id, runReadStatus_keepsLine.ok, runSetNoticeMask_keepsLine.ok, runResetDevice_ok,
      (readAs_keepsLine _).ok, (readAs_keepsLine _).ok, runSetPositionConfig_ok, runSelectSource_ok, runAbortSwitch_ok,
      runSetSpeed_ok, (readAs_keepsLine _).ok, runSetInput_keepsLine.ok, runReadCapture_ok⟩
  · exact ⟨runReadItem_keepsLine.ok, (readAs_keepsLine _).ok, (readAs_keepsLine _).ok, runSetItemGeometry_ok,
      runDeclareItem_ok, runTagItem_keepsLine.ok, runWithdrawItem_keepsLine.ok⟩
  · exact ⟨(readUnit_keepsLine _).ok, runSetChannel_keepsLine.ok, runSetPulse_keepsLine.ok, runPlanItem_keepsLine.ok,
      runRunPitch_keepsLine.ok, runShootCount_keepsLine.ok, runRunUntil_keepsLine.ok, runHaltSoft_keepsLine.ok,
      runHaltHard_keepsLine.ok, (readAs_keepsLine _).ok, runSetEject_keepsLine.ok⟩
  · exact ⟨(readUnit_keepsLine _).ok, runSetPort_keepsLine.ok, runEnablePort_keepsLine.ok, runDisablePort_keepsLine.ok,
      runResetPort_keepsLine.ok, (readUnit_keepsLine _).ok, runSetConversion_keepsLine.ok, runSetPreview_keepsLine.ok⟩
  · exact ⟨runReadFrame_keepsLine.ok, (readAs_keepsLine _).ok, runHold_keepsLine.ok, runRelease_keepsLine.ok,
      runDiscard_keepsLine.ok, runClearStore_keepsLine.ok, runSetLowWater_keepsLine.ok, runVerdict_keepsLine.ok,
      runOverride_keepsLine.ok, runSetHoldRejected_keepsLine.ok, (readAs_keepsLine _).ok⟩
  · exact ⟨(readAs_keepsLine _).ok, runRetrainLink_keepsLine.ok, (readAs_keepsLine _).ok, runCredit_keepsLine.ok,
      runPull_keepsLine.ok, runCancelPull_keepsLine.ok, runSetAutoFull_keepsLine.ok⟩

/-- The row of a request stands in the command table. -/
theorem rowOf_mem {i : Instr} {o : OpSpec} (h : rowOf i = some o) : o ∈ opTable := by
  cases i <;> simp only [rowOf, Option.some.injEq, reduceCtorEq] at h <;> subst h <;> simp [opTable]

/-- What has a row is a request. -/
theorem request_of_rowOf {i : Instr} {o : OpSpec} (h : rowOf i = some o) : ∃ v args, i.request? = some (v, args) := by
  cases i <;> simp [rowOf, Instr.request?] at h ⊢

/-- An operation that is found by its code stands in the command table. -/
theorem lookupOp_mem {code : Byte} {o : OpSpec} (h : lookupOp code = some o) : o ∈ opTable := List.mem_of_find?_eq_some h

theorem takeFrame_lineOk (content : List Byte) (crc : BitVec 32) {s : State} (h : LineOk s) :
    LineOk (takeFrame content crc s) := by
  have idle : LineOk (takeIdleFrame content crc s) := by
    unfold takeIdleFrame
    split
    · exact (modLnk_lineKept _ s).ok h
    · exact ((modLnk_lineKept _ s).trans (modLnk_lineKept _ _)).ok h
  have control : LineOk (takeControlFrame content crc s) := by
    unfold takeControlFrame
    split
    · exact (modLnk_lineKept _ s).ok h
    · split
      · exact (modLnk_lineKept _ s).ok h
      · exact receiveRequest_lineOk (fun o e => opTable_keepsLineOk o (lookupOp_mem e)) _ _ _ h
  unfold takeFrame
  split
  · split
    · exact h
    · split
      · exact idle
      · exact h
    · split
      · exact control
      · exact h
    · split
      · exact control
      · exact h
  · exact h

/-- An outcome that, where it is a next state, is one of which `P` holds. -/
def LeadsTo (P : State → Prop) (o : Effect) : Prop := ∀ t, o = .next t → P t

theorem leadsTo_next {P : State → Prop} {t : State} (h : P t) : LeadsTo P (.next t) := fun _ e => by
  cases e
  exact h

theorem event_lineOk {i : Instr} (hi : rowOf i = none) {s : State} (h : LineOk s) : LeadsTo LineOk (exec i s) := by
  cases i with
  | quadEdge a b => exact leadsTo_next (takeQuadEdge_lineOk a b h)
  | stepEdge d => exact leadsTo_next (takeStepEdge_lineOk d h)
  | generatorCount => exact leadsTo_next (takeGeneratorCount_lineOk h)
  | switchDeadline => exact leadsTo_next (takeSwitchDeadline_lineOk h)
  | silenceExpiry => exact leadsTo_next (takeSilenceExpiry_lineOk h)
  | speedIntervalEnd => exact leadsTo_next (takeIntervalEnd_lineOk h)
  | capturePinChange i l => exact leadsTo_next (takePinChange_lineOk i l h)
  | filterExpiry i => exact leadsTo_next (takeFilterExpiry_lineOk i h)
  | ejectPulseEnd => exact leadsTo_next ((takeEjectEnd_lineKept s).ok h)
  | triggerPulseEnd n => exact leadsTo_next ((takeTriggerEnd_lineKept n s).ok h)
  | strobeDelayEnd n => exact leadsTo_next ((takeStrobeDelayEnd_lineKept n s).ok h)
  | strobePulseEnd n => exact leadsTo_next ((takeStrobeEnd_lineKept n s).ok h)
  | lockGained n => exact leadsTo_next ((takeLockGained_lineKept n s).ok h)
  | lockLost n => exact leadsTo_next ((takeLockLost_lineKept n s).ok h)
  | fsWord n c => exact leadsTo_next ((takeFs_calm n c s).lineKept.ok h)
  | lnWord n l => exact leadsTo_next ((takeLn_calm n l s).lineKept.ok h)
  | feWord n => exact leadsTo_next ((takeFe_calm n s).lineKept.ok h)
  | frameWindowExpiry n => exact leadsTo_next ((takeWindowExpiry_lineKept n s).ok h)
  | lightGained => exact leadsTo_next ((takeLightGained_lineKept s).ok h)
  | lightLost => exact leadsTo_next ((takeLightLost_lineKept s).ok h)
  | receivedDelimiter d => exact leadsTo_next ((takeDelimiter_lineKept d s).ok h)
  | huntDelimiterFound d => exact leadsTo_next ((takeHuntDelimiter_lineKept d s).ok h)
  | huntSpanExpiry => exact leadsTo_next ((takeHuntSpan_lineKept s).ok h)
  | controlHeaderReceived l => exact leadsTo_next ((takeControlHeader_lineKept l s).ok h)
  | frameReceived c crc => exact leadsTo_next (takeFrame_lineOk c crc h)
  | retrainHoldEnd => exact leadsTo_next ((takeHoldEnd_lineKept s).ok h)
  | transmitFrameEnd => exact leadsTo_next ((takeFrameEnd_lineKept s).ok h)
  | powerOn r => exact leadsTo_next (deviceReset_lineOk _ s)
  | rstAsserted => exact leadsTo_next (deviceReset_lineOk _ s)
  | resetEnd c => exact leadsTo_next (takeResetEnd_lineOk c h)
  | unknownOperation op args =>
    exact leadsTo_next (localRequest_lineOk (fun o e => opTable_keepsLineOk o (lookupOp_mem e)) args h)
  | _ => simp [rowOf] at hi

theorem exec_lineOk (i : Instr) {s t : State} (h : LineOk s) (e : exec i s = .next t) : LineOk t := by
  cases hi : rowOf i with
  | none => exact event_lineOk hi h t e
  | some o =>
    obtain ⟨v, args, hr⟩ := request_of_rowOf hi
    rw [exec_request hi hr] at e
    exact leadsTo_next (takeRequest_lineOk (opTable_keepsLineOk o (rowOf_mem hi)) v args h) t e

/-- Settles O56: the bounds of the line side are kept by the queue, the free orders, the passing of time and every command. -/
theorem stepsKeepTheLineSide : Obligations.StepsKeepTheLineSide := fun _ _ hp ht e =>
  step_keeps (P := LineOk) (fun _ _ h => h) (fun _ _ h => h) (fun s h => (elapse_lineKept 1 s).ok h)
    (fun i _ _ h e => exec_lineOk i h e) ⟨hp, ht⟩ e

end Sys2Proof.Machine
end

section
/-! PROOFS. The requests of the line side: the ten reads that name nothing (O11, O60), ABORT_SWITCH (O17), SELECT_SOURCE and SET_SPEED
(O16), and the settings (O15). -/

namespace Sys2Proof.Machine

/-! ## Answers by the dispatcher -/

/-- A read that either master may issue is answered OK with what is sampled as it is taken, and changes nothing. -/
theorem serves_readAs {i : Instr} {v : Via} {code : Byte} {args : List Byte} {s : State} (f : State → List Byte)
    (hrow : rowOf i = some (bothOp code 0 (readAs f))) (hreq : i.request? = some (v, args)) (hc : CanServe v s) :
    Serves i v code args s (ready v s) (0x01 :: f (ready v s)) :=
  serves_of_run _ hrow hreq rfl hc (by cases v <;> rfl) (Nat.zero_le _) rfl

/-- A request of LINE alone that OFFICE sends is answered NOT_PERMITTED (R188). -/
theorem serves_lineOp_office {i : Instr} {tag : BitVec 16} {code : Byte} {n : Nat} {run : Handler} {args : List Byte}
    {s : State} (hrow : rowOf i = some (lineOp code n run)) (hreq : i.request? = some (.office tag, args))
    (hc : CanServe (.office tag) s) : Serves i (.office tag) code args s (ready (.office tag) s) [0x05] := by
  unfold Serves
  rw [exec_request hrow hreq, takeRequest_served hc, serve_notPermitted rfl]
  rfl

/-- A request of LINE alone that LINE sends is served by its rule. -/
theorem serves_lineOp {i : Instr} {code : Byte} {n : Nat} {run : Handler} {args : List Byte} {s t : State} {a : Answer}
    (hrow : rowOf i = some (lineOp code n run)) (hreq : i.request? = some (.line, args)) (hc : CanServe .line s)
    (hl : n ≤ args.length) (hrun : run .line args (ready .line s) = (t, a)) : Serves i .line code args s t a :=
  serves_of_run _ hrow hreq rfl hc rfl hl hrun

/-! ## Reads -/

/-- Settles O11: each of the ten reads is `readAs` of its snapshot. -/
theorem plainReadsSampleAndChangeNothing : Obligations.PlainReadsSampleAndChangeNothing := fun _ _ _ hc =>
  ⟨serves_readAs positionSnapshot rfl rfl hc, serves_readAs positionSettings rfl rfl hc,
    serves_readAs inputsSnapshot rfl rfl hc, serves_readAs itemList rfl rfl hc, serves_readAs geometryBytes rfl rfl hc,
    serves_readAs ejectSnapshot rfl rfl hc, serves_readAs storeSnapshot rfl rfl hc,
    serves_readAs retirementsSnapshot rfl rfl hc, serves_readAs linkSnapshot rfl rfl hc,
    serves_readAs forwardSnapshot rfl rfl hc⟩

/-- Settles O60: the two snapshots field by field. Taking the request has moved neither POSU nor ITAB. -/
theorem settingsAreReadAsTheyStand : Obligations.SettingsAreReadAsTheyStand := fun v args s hc => by
  have position := serves_readAs (i := .readPositionConfig v args) positionSettings rfl rfl hc
  have geometry := serves_readAs (i := .readItemGeometry v args) geometryBytes rfl rfl hc
  rw [positionSettings, ready_posu] at position
  rw [geometryBytes, ready_itab] at geometry
  exact ⟨position, geometry⟩

/-! ## Switches and speeds -/

/-- The notice of a switch's end, in the LINE view (R12). -/
theorem switchNotice_bit (o : SwitchOutcome) :
    (if o = .done then Notice.switchDone else Notice.switchFailed).bit = if o = .done then 0x00000002 else 0x00000004 := by
  split <;> rfl

/-- The end of a pending switch, with its notice as a bit of the LINE view (R12). -/
theorem endSwitch_some_bit {s : State} {p : PendingSwitch} (h : s.posu.pendingSwitch = some p) (o : SwitchOutcome) :
    endSwitch o s = (s.setPosu { s.posu with
      pendingSwitch := none, lastSwitch := some { target := p.target, outcome := o, stamp := s.stamp } }).setRnu
      { s.rnu with lineView := s.rnu.lineView ||| if o = .done then 0x00000002 else 0x00000004 } := by
  rw [endSwitch_some h, setLine, switchNotice_bit]
  rfl

/-- Settles O17. -/
theorem abortSwitchCancelsAPendingSwitch : Obligations.AbortSwitchCancelsAPendingSwitch := fun args s => by
  refine ⟨fun tag hc => serves_lineOp_office rfl rfl hc, fun hc p hp => serves_lineOp rfl rfl hc (Nat.zero_le _) ?_,
    fun hc hn => serves_lineOp rfl rfl hc (Nat.zero_le _) ?_⟩
  · have pending : (ready .line s).posu.pendingSwitch = some p := hp
    rw [runAbortSwitch, if_neg (by simp [hp]), endSwitch_some_bit pending]
    rfl
  · rw [runAbortSwitch, if_pos (by simp [hn])]
    rfl

theorem sourceOf_none {v : Nat} (h : 3 ≤ v) : sourceOf v = none := by
  rcases v with _ | _ | _ | v
  · omega
  · omega
  · omega
  · rfl

theorem sourceOf_code (src : Source) : sourceOf src.code.toNat = some src := by cases src <;> rfl

/-- SELECT_SOURCE by the source that its argument names (R7). -/
theorem runSelectSource_some {m : Master} {args : List Byte} {s : State} {target : Source}
    (h : argNat args 0 1 = target.code.toNat) : runSelectSource m args s =
      if s.posu.active = target then
        if s.posu.pendingSwitch.isNone then (s, say .redundant) else (endSwitch .cancelled s, say .ok)
      else (beginSwitch target s, say .ok) := by
  simp only [runSelectSource, h, sourceOf_code]

/-- SET_SPEED as one clamp (R17). -/
theorem runSetSpeed_eq (m : Master) (args : List Byte) (s : State) : runSetSpeed m args s =
    let v := argNat args 0 4
    let w := if v = 0 then 0 else if v < 10 then 10 else if 4000000 < v then 4000000 else v
    (setSpeedTo w s, if w = v then [0x01] else 0x13 :: be 4 w) := by
  unfold runSetSpeed
  dsimp only
  generalize argNat args 0 4 = v
  by_cases in_range : v = 0 ∨ within 10 4000000 v = true
  · have same : (if v = 0 then 0 else if v < 10 then 10 else if 4000000 < v then 4000000 else v) = v := by
      rw [within_iff] at in_range
      split_ifs <;> omega
    rw [if_pos in_range, same, if_pos rfl]
    rfl
  · rw [if_neg in_range]
    rw [within_iff] at in_range
    have hv : v ≠ 0 := fun e => in_range (Or.inl e)
    by_cases low : v < 10
    · simp only [hv, low, if_true, if_false, show ¬ 10 = v by omega]
      rfl
    · simp only [hv, low, if_true, if_false, show 4000000 < v by omega, show ¬ 4000000 = v by omega]
      rfl

/-- Settles O16. -/
theorem sourcesAreSelectedAndSpeedsClamped : Obligations.SourcesAreSelectedAndSpeedsClamped := by
  refine ⟨fun o s => ⟨fun h => endSwitch_none h o, fun p h => endSwitch_some_bit h o⟩, fun args s hl hc => ⟨fun h => ?_,
    fun target ht => ?_⟩, fun args s hl hc => ?_⟩
  · exact serves_lineOp rfl rfl hc hl (by simp only [runSelectSource, sourceOf_none h]; rfl)
  · refine ⟨fun active idle => ?_, fun active pending => ?_, fun other => ?_⟩ <;>
      refine serves_lineOp rfl rfl hc hl ((runSelectSource_some ht).trans ?_)
    · rw [ready_posu, if_pos active, if_pos (by simp [idle])]
      rfl
    · rw [ready_posu, if_pos active, if_neg (by simp [pending])]
      rfl
    · rw [ready_posu, if_neg other]
      have settings : (endSwitch .superseded (ready .line s)).posu.settings = s.posu.settings := by
        rw [endSwitch_posu]
        rfl
      simp only [beginSwitch, settings]
      rfl
  · exact serves_lineOp rfl rfl hc hl (runSetSpeed_eq _ _ _)

/-! ## Settings -/

theorem senseOf_none {v : Nat} (h : 2 ≤ v) : senseOf v = none := by
  rcases v with _ | _ | v
  · omega
  · omega
  · rfl

theorem senseOf_code (x : Sense) : senseOf x.code.toNat = some x := by cases x <;> rfl

theorem inputOf_none {v : Nat} (h : 4 ≤ v) : inputOf v = none := by
  rcases v with _ | _ | _ | _ | v
  · omega
  · omega
  · omega
  · omega
  · rfl

theorem edgesOf_none {v : Nat} (h : 4 ≤ v) : edgesOf v = none := by
  rcases v with _ | _ | _ | _ | v
  · omega
  · omega
  · omega
  · omega
  · rfl

theorem levelOf_none {v : Nat} (h : 2 ≤ v) : levelOf v = none := by
  rcases v with _ | _ | v
  · omega
  · omega
  · rfl

theorem roleOf_none {v : Nat} (h : 3 ≤ v) : roleOf v = none := by
  rcases v with _ | _ | _ | v
  · omega
  · omega
  · omega
  · rfl

/-- The ranges of the position settings (section 1.4). -/
def settingsInRange (g : PositionSettings) : Prop :=
  16 ≤ g.qualCount ∧ g.qualCount ≤ 4096 ∧ 10 ≤ g.switchLimit ∧ g.switchLimit ≤ 10000 ∧ 1 ≤ g.silenceWindow ∧
    g.silenceWindow ≤ 1000 ∧ 1 ≤ g.faultLimit ∧ g.faultLimit ≤ 15

/-- A sense changes of a source in use (R6). -/
def sensesBusy (g : PositionSettings) (p : Posu) : Prop :=
  (g.quadSense ≠ p.settings.quadSense ∧ inUse p .quad = true) ∨ (g.stepSense ≠ p.settings.stepSense ∧ inUse p .step = true)

/-- SET_POSITION_CONFIG with arguments that carry the settings `g` (R6). -/
theorem runSetPositionConfig_in {m : Master} {args : List Byte} {s : State} {g : PositionSettings}
    (h0 : argNat args 0 2 = g.qualCount) (h1 : argNat args 2 2 = g.switchLimit) (h2 : argNat args 4 2 = g.silenceWindow)
    (h3 : argNat args 6 1 = g.faultLimit) (h4 : argNat args 7 1 = g.quadSense.code.toNat)
    (h5 : argNat args 8 1 = g.stepSense.code.toNat) (hg : settingsInRange g) :
    runSetPositionConfig m args s = setPositionConfig g s := by
  have range : (within 16 4096 g.qualCount && within 10 10000 g.switchLimit && within 1 1000 g.silenceWindow &&
      within 1 15 g.faultLimit) = true := by
    simp only [Bool.and_eq_true, within_iff, and_assoc]
    exact hg
  simp only [runSetPositionConfig, h0, h1, h2, h3, h4, h5, senseOf_code, range, if_true]

/-- SET_POSITION_CONFIG with a sense or a number out of its range (R6). -/
theorem runSetPositionConfig_out {m : Master} {args : List Byte} {s : State} {g : PositionSettings}
    (h0 : argNat args 0 2 = g.qualCount) (h1 : argNat args 2 2 = g.switchLimit) (h2 : argNat args 4 2 = g.silenceWindow)
    (h3 : argNat args 6 1 = g.faultLimit) (h : 2 ≤ argNat args 7 1 ∨ 2 ≤ argNat args 8 1 ∨ ¬settingsInRange g) :
    runSetPositionConfig m args s = (s, say .badArg) := by
  unfold runSetPositionConfig
  dsimp only
  rcases h with h | h | h
  · rw [senseOf_none h]
  · rw [senseOf_none h]
    split
    · contradiction
    · rfl
  · split
    · rw [if_neg]
      rw [h0, h1, h2, h3]
      simp only [Bool.and_eq_true, within_iff, and_assoc]
      exact h
    · rfl

/-- SET_POSITION_CONFIG in range is BUSY or writes all six settings (R6). -/
theorem setPositionConfig_eq (g : PositionSettings) (s : State) :
    (sensesBusy g s.posu → setPositionConfig g s = (s, say .busy)) ∧
    (¬sensesBusy g s.posu → setPositionConfig g s = (s.setPosu { s.posu with
      settings := g
      pendingSwitch := s.posu.pendingSwitch.map fun p =>
        { p with count := if p.target = .synth then g.qualCount else min p.count g.qualCount } }, say .ok)) := by
  have test : (decide (g.quadSense ≠ s.posu.settings.quadSense) && inUse s.posu .quad ||
      decide (g.stepSense ≠ s.posu.settings.stepSense) && inUse s.posu .step) = true ↔ sensesBusy g s.posu := by
    simp [sensesBusy]
  unfold setPositionConfig
  dsimp only
  refine ⟨fun h => if_pos (test.2 h), fun h => if_neg (fun e => h (test.1 e))⟩

/-- SET_INPUT with arguments that name settings (R25). -/
theorem setInput_eq (i : CaptureInput) (edges : EdgeSelection) (filter : Nat) (level : Level) (role : Role) (s : State) :
    let u := s.capu.input i
    let changes := i = .item ∧ (edges ≠ u.edges ∨ level ≠ u.level)
    setInput i edges filter level role s =
      if i = .stop ∧ edges ≠ .both then (s, say .badArg)
      else if changes ∧ newestEntering s = true then (s, say .busy)
      else ((s.setCapu (s.capu.setInput i { u with edges := edges, filter := filter, level := level, role := role })).setItab
        { s.itab with suppression := if changes then false else s.itab.suppression }, say .ok) := by
  unfold setInput
  simp only [Bool.and_eq_true, decide_eq_true_eq, Bool.or_eq_true, modInput]
  split
  · rfl
  · split
    · rfl
    · split <;> rfl

/-- SET_INPUT with an argument outside its table (R25). -/
theorem runSetInput_out {m : Master} {args : List Byte} {s : State}
    (h : 4 ≤ argNat args 0 1 ∨ 4 ≤ argNat args 1 1 ∨ 2 ≤ argNat args 4 1 ∨ 3 ≤ argNat args 5 1) :
    runSetInput m args s = (s, say .badArg) := by
  unfold runSetInput
  split
  · rename_i hi he hv hr
    rcases h with h | h | h | h
    · rw [inputOf_none h] at hi
      cases hi
    · rw [edgesOf_none h] at he
      cases he
    · rw [levelOf_none h] at hv
      cases hv
    · rw [roleOf_none h] at hr
      cases hr
  · rfl

/-- SET_ITEM_GEOMETRY with an item in the table (R46). -/
theorem runSetItemGeometry_busy {m : Master} {args : List Byte} {s : State} (h : s.itab.items ≠ []) :
    runSetItemGeometry m args s = (s, say .busy) := if_pos (by simp [h])

/-- The ranges of the gap, the length and the distance of the geometry, and the distance clear of every item (R46). -/
def geometryInRange (gap len dist offset : Nat) : Prop :=
  1 ≤ gap ∧ 1 ≤ len ∧ len ≤ 16777216 ∧ 2 ≤ dist ∧ dist ≤ 1073741824 ∧ len + offset < dist

/-- The test of SET_ITEM_GEOMETRY: of the gap, 2 bytes give the upper bound. -/
theorem geometryInRange_iff (args : List Byte) (len dist offset : Nat) :
    (within 1 65535 (argNat args 0 2) && within 1 16777216 len && within 2 1073741824 dist && decide (len + offset < dist)) = true ↔
      geometryInRange (argNat args 0 2) len dist offset := by
  have gap : argNat args 0 2 ≤ 65535 := Nat.le_of_lt_succ (argNat_lt args 0 2)
  simp only [Bool.and_eq_true, within_iff, decide_eq_true_eq, geometryInRange, gap, and_true, and_assoc]

/-- SET_ITEM_GEOMETRY with an empty table and values in range (R46). -/
theorem runSetItemGeometry_in {m : Master} {args : List Byte} {s : State} {v : Verdict} {b : BlindPolicy}
    (h : s.itab.items = []) (hv : verdictOf (argNat args 10 1) = some v) (hb : blindPolicyOf (argNat args 11 1) = some b)
    (range : geometryInRange (argNat args 0 2) (argNat args 2 4) (argNat args 6 4) (largestOffset s)) :
    runSetItemGeometry m args s = (s.setItab { s.itab with geometry := {
      minGap := argNat args 0 2, maxLength := argNat args 2 4, ejectDistance := argNat args 6 4
      defaultVerdict := v, blindPolicy := b } }, say .ok) := by
  unfold runSetItemGeometry
  simp only [h, List.isEmpty_nil, Bool.not_true, Bool.false_eq_true, if_false, hv, hb]
  exact if_pos ((geometryInRange_iff _ _ _ _).2 range)

/-- SET_ITEM_GEOMETRY with an empty table and a value out of its range (R46). -/
theorem runSetItemGeometry_out {m : Master} {args : List Byte} {s : State} (h : s.itab.items = [])
    (out : verdictOf (argNat args 10 1) = none ∨ blindPolicyOf (argNat args 11 1) = none ∨ argNat args 0 2 = 0 ∨
      argNat args 2 4 = 0 ∨ 16777216 < argNat args 2 4 ∨ argNat args 6 4 < 2 ∨ 1073741824 < argNat args 6 4 ∨
      argNat args 6 4 ≤ argNat args 2 4 + largestOffset s) :
    runSetItemGeometry m args s = (s, say .badArg) := by
  unfold runSetItemGeometry
  simp only [h, List.isEmpty_nil, Bool.not_true, Bool.false_eq_true, if_false]
  split
  · rename_i hv hb
    refine if_neg fun e => ?_
    have range := (geometryInRange_iff _ _ _ _).1 e
    rw [hv, hb] at out
    unfold geometryInRange at range
    rcases out with x | x | x
    · cases x
    · cases x
    · omega
  · rfl

/-- Settles O15: each request by its ranges and its BUSY cases. -/
theorem positionInputAndGeometrySettings : Obligations.PositionInputAndGeometrySettings := by
  refine ⟨fun args s g hl hc h0 h1 h2 h3 => ⟨fun out => ?_, fun h4 h5 a b c d e f x y => ?_⟩, fun args s hl hc =>
    ⟨fun out => ?_, fun i edges level role hi he hv hr => ?_⟩, fun args s hl hc => ⟨fun items => ?_, fun empty v b hv hb =>
    ⟨fun v' b' ev eb gap len1 len2 dist1 dist2 clears => ?_, fun out => ?_⟩⟩⟩
  · exact serves_lineOp rfl rfl hc hl (runSetPositionConfig_out h0 h1 h2 h3 out)
  · have run := runSetPositionConfig_in (m := .line) (s := ready .line s) h0 h1 h2 h3 h4 h5 ⟨a, b, c, d, e, f, x, y⟩
    have cases := setPositionConfig_eq g (ready .line s)
    split
    · rename_i busy
      exact serves_lineOp rfl rfl hc hl (run.trans (cases.1 busy))
    · rename_i free
      exact serves_lineOp rfl rfl hc hl (run.trans (cases.2 free))
  · exact serves_lineOp rfl rfl hc hl (runSetInput_out out)
  · have run : runSetInput .line args (ready .line s) = setInput i edges (argNat args 2 2) level role (ready .line s) := by
      simp only [runSetInput, hi, he, hv, hr]
    have eq := run.trans (setInput_eq i edges (argNat args 2 2) level role (ready .line s))
    dsimp only
    split
    · rename_i bad
      exact serves_lineOp rfl rfl hc hl (eq.trans (if_pos bad))
    · rename_i good
      split
      · rename_i busy
        exact serves_lineOp rfl rfl hc hl (eq.trans ((if_neg good).trans (if_pos busy)))
      · rename_i free
        exact serves_lineOp rfl rfl hc hl (eq.trans ((if_neg good).trans (if_neg free)))
  · exact serves_lineOp rfl rfl hc hl (runSetItemGeometry_busy items)
  · exact serves_lineOp rfl rfl hc hl
      (runSetItemGeometry_in (s := ready .line s) empty (hv.trans ev) (hb.trans eb)
        ⟨gap, len1, len2, dist1, dist2, clears⟩)
  · subst hv hb
    exact serves_lineOp rfl rfl hc hl (runSetItemGeometry_out (s := ready .line s) empty out)

end Sys2Proof.Machine
end

section
/-! PROOFS. Edges and counts of the position sources, count events, and the timers and failovers of POSU (O18 to O21). -/

namespace Sys2Proof.Machine

/-! ## Edges and the rate generator -/

/-- Time that passes out of reset (log entry 1). -/
theorem elapse_running {s : State} (h : inReset s = false) (n : Nat) : elapse n s = { s with
    stamp := s.stamp + BitVec.ofNat 48 n
    posu := { s.posu with genPhase := s.posu.genPhase + s.posu.synthSpeed * n }
    lnk := { s.lnk with txSent := s.lnk.txSent + if s.lnk.tx.counts then 12 * n else 0 } } := by
  rw [elapse, h]
  rfl

/-- No time passes in no stamp units. -/
theorem elapse_zero {s : State} (h : inReset s = false) : elapse 0 s = s := by
  simp [elapse_running h]

/-- The generator's wait is the least number of stamp units that brings its phase to a whole interval (R4). -/
theorem generatorWait_least {p : Posu} (h : 0 < p.synthSpeed) : ∃ n, generatorWait p = some n ∧
    100000000 ≤ p.genPhase + p.synthSpeed * n ∧ ∀ k, 100000000 ≤ p.genPhase + p.synthSpeed * k → n ≤ k := by
  refine ⟨_, if_neg h.ne', ?_, fun k hk => ?_⟩
  · have := Nat.lt_mul_div_succ (generatorInterval - p.genPhase + p.synthSpeed - 1) h
    rw [Nat.mul_add, Nat.mul_one] at this
    unfold generatorInterval at this ⊢
    omega
  · rw [← Nat.lt_succ_iff, Nat.div_lt_iff_lt_mul h, Nat.succ_mul, Nat.mul_comm k]
    unfold generatorInterval
    omega

/-- A GENERATOR_COUNT out of reset at a speed: the clock runs to the end of the interval, and the count keeps the phase's
remainder. -/
theorem takeGeneratorCount_running {s : State} (hr : inReset s = false) {n : Nat} (hn : generatorWait s.posu = some n) :
    takeGeneratorCount s = sourceCount .synth true { s with
      stamp := s.stamp + BitVec.ofNat 48 n
      posu := { s.posu with genPhase := s.posu.genPhase + s.posu.synthSpeed * n - 100000000 }
      lnk := { s.lnk with txSent := s.lnk.txSent + if s.lnk.tx.counts then 12 * n else 0 } } := by
  have passed : (if n = 0 then s else elapse n s) = elapse n s := by
    split
    · rename_i zero
      rw [zero, elapse_zero hr]
    · rfl
  rw [takeGeneratorCount, if_neg (by simp [hr]), hn]
  simp only [passed]
  rw [elapse_running hr]
  rfl

/-- Settles O18. -/
theorem edgesAndIntervalsAreSourceCounts : Obligations.EdgesAndIntervalsAreSourceCounts := by
  refine ⟨fun sense a b => ?_, fun s => ⟨fun a b => ⟨fun hr => ?_, fun hr f hd => ?_, fun hr hd => ?_, fun hr hd => ?_⟩,
    fun d => ⟨fun hr => ?_, fun hr => ?_⟩, fun h => ?_, fun hr hs => ?_⟩⟩
  · cases sense <;> cases a <;> cases b <;> exact ⟨rfl, rfl, rfl, rfl⟩
  · change Host.Outcome.next (takeQuadEdge a b s) = _
    rw [takeQuadEdge, if_pos hr]
  · change Host.Outcome.next (takeQuadEdge a b s) = _
    simp only [takeQuadEdge, hr, hd, Bool.false_eq_true, if_false]
  · change Host.Outcome.next (takeQuadEdge a b s) = _
    simp only [takeQuadEdge, hr, hd, Bool.false_eq_true, if_false]
  · change Host.Outcome.next (takeQuadEdge a b s) = _
    simp only [takeQuadEdge, hr, hd, Bool.false_eq_true, if_false]
  · change Host.Outcome.next (takeStepEdge d s) = _
    rw [takeStepEdge, if_pos hr]
  · have sense : (decide (s.posu.settings.stepSense = .normal) == d) =
        if s.posu.settings.stepSense = .normal then d else !d := by
      cases s.posu.settings.stepSense <;> cases d <;> rfl
    change Host.Outcome.next (takeStepEdge d s) = _
    rw [takeStepEdge, hr, sense]
    rfl
  · change Host.Outcome.next (takeGeneratorCount s) = _
    unfold takeGeneratorCount
    split
    · rfl
    · rename_i hr
      rw [generatorWait, if_pos (h.resolve_left hr)]
  · obtain ⟨n, hn, reached, least⟩ := generatorWait_least hs
    exact ⟨n, ⟨reached, least⟩, congrArg _ (takeGeneratorCount_running hr hn)⟩

/-! ## Counts and faults by their source -/

/-- A count of the active source renews its monitor; QUAD's works off the fault score as well (R14, R15). -/
theorem monitorCount_eq (src : Source) (s : State) : monitorCount src s = s.setPosu { s.posu with
    monitor := s.posu.monitor.map fun m =>
      if src = .quad then
        { lastCount := s.stamp, reference := s.posu.measuredSpeed
          score := if m.tally + 1 = 1024 then m.score - 1 else m.score
          tally := if m.tally + 1 = 1024 then 0 else m.tally + 1 }
      else { m with lastCount := s.stamp, reference := s.posu.measuredSpeed } } := by
  refine congrArg (fun f => s.setPosu { s.posu with monitor := s.posu.monitor.map f }) (funext fun m => ?_)
  dsimp only
  split
  · unfold Monitor.tallied
    dsimp only
    split <;> rfl
  · rfl

/-- The completing count makes the target active, with its monitor started where it has one (R10). -/
theorem completeSwitch_eq (target : Source) (f : Bool) (s : State) : completeSwitch target f s =
    countEvent f ((endSwitch .done s).setPosu { (endSwitch .done s).posu with
      active := target
      monitor := if target = .synth then none else
        some { lastCount := s.stamp, reference := s.posu.measuredSpeed, score := 0, tally := 0 } }) := by
  have stamp : (endSwitch .done s).stamp = s.stamp := by rw [endSwitch_rest]
  have speed : (endSwitch .done s).posu.measuredSpeed = s.posu.measuredSpeed := by rw [endSwitch_posu]
  unfold completeSwitch
  cases target <;> simp only [startMonitor, stamp, speed] <;> rfl

/-- A pending target is another source's where no switch to it is pending. -/
theorem not_target {o : Option PendingSwitch} {src : Source} (h : o.map (·.target) ≠ some src) {p : PendingSwitch}
    (hp : o = some p) : p.target ≠ src := fun e => h (by rw [hp, Option.map_some, e])

/-- Settles O19. -/
theorem sourceCountsAndFaultsByTheirSource : Obligations.SourceCountsAndFaultsByTheirSource := by
  refine ⟨fun s => ⟨fun m active hm => ⟨fun below => ?_, fun limit => ?_⟩, fun p other hp quad => ?_, fun other none => ?_⟩,
    fun src f s => ⟨fun active => ?_, fun other none => ?_, fun p other hp target => ⟨fun below => ?_, fun full => ?_⟩⟩⟩
  · simp only [quadFault, active, hm, if_true]
    exact if_neg (Nat.not_le.2 below)
  · simp only [quadFault, active, hm, if_true]
    exact if_pos limit
  · simp only [quadFault, other, hp, quad, if_true, if_false]
  · rw [quadFault, if_neg other]
    split
    · rfl
    · rename_i p hp
      exact if_neg (not_target none hp)
  · rw [sourceCount, if_pos active, monitorCount_eq]
  · rw [sourceCount, if_neg other]
    split
    · rfl
    · rename_i p hp
      exact if_neg (not_target none hp)
  · simp only [sourceCount, other, hp, target, if_true, if_false, qualifyCount, qualified, Nat.not_le.2 below,
      decide_false, Bool.false_eq_true]
  · subst target
    simp only [sourceCount, other, hp, if_true, if_false, qualifyCount, qualified, full, decide_true]
    exact completeSwitch_eq _ f s

/-! ## Count events -/

theorem mem_allWork (w : CountWork) : w ∈ allWork := by
  cases w with
  | channel n => revert n; decide
  | _ => decide

theorem allWork_nodup : allWork.Nodup := by decide

/-- The work there is at a position. -/
theorem mem_filter_hasWork {s : State} {p : Pos} {w : CountWork} :
    w ∈ allWork.filter (hasWork s p) ↔ hasWork s p w = true := by simp [List.mem_filter, mem_allWork]

/-- A list without repetition that holds one member alone. -/
theorem eq_singleton_of_nodup {α : Type} {l : List α} {a : α} (hl : l.Nodup) (h : ∀ b, b ∈ l ↔ b = a) : l = [a] := by
  refine List.perm_singleton.1 ((List.perm_ext_iff_of_nodup hl (List.nodup_singleton a)).2 fun b => ?_)
  rw [h, List.mem_singleton]

theorem countEvent_true_work (s : State) : WorkKept (s.posu.position + 1) (countedOn s) (countEvent true s) := by
  rw [countEvent_true]
  exact forEachFree_rel (.refl _) .trans (fun s k => (choseOrder_lineKept k s).work _) (fun w _ s => doWork_work _ w s) _

/-- Each eject request restarts EJECT's width, and each is counted twice over (R45, R72, R140). -/
theorem blindRequests_succ (n : Nat) (s : State) : blindRequests (n + 1) s =
    (s.setItab { s.itab with blindEjects := s.itab.blindEjects + BitVec.ofNat 32 (n + 1) }).setEject
      { s.trgu.eject with
        upTo := some (s.stamp + BitVec.ofNat 48 (s.trgu.eject.width * 100))
        count := s.trgu.eject.count + BitVec.ofNat 32 (n + 1) } := by
  induction n generalizing s with
  | zero => rfl
  | succ n ih =>
    have one : ∀ c : Count, c + 1 + BitVec.ofNat 32 (n + 1) = c + BitVec.ofNat 32 (n + 1 + 1) := fun c => by
      rw [BitVec.add_assoc, BitVec.add_comm 1, BitVec.ofNat_add (n + 1) 1]
      rfl
    rw [blindRequests, ih]
    simp only [ejectRequest, State.setItab, State.setEject, one]

/-- Settles O20. -/
theorem countEventsMoveThePositionAndDoTheirWork : Obligations.CountEventsMoveThePositionAndDoTheirWork := by
  refine ⟨fun now l => ⟨sortBlind_perm now l, sortBlind_order now l⟩, fun s => ⟨countEvent_false s, fun f => ?_, fun none => ?_,
    fun w only => ?_, ?_⟩, fun p s => ⟨?_, fun it last entering here => ?_, ?_, fun mem => ?_, ?_, fun it oldest here => ?_,
    fun n => ⟨rfl, ?_⟩⟩⟩
  · cases f with
    | false => rfl
    | true => exact congrArg Posu.position (countEvent_true_work s).kept.posu
  · have empty : allWork.filter (hasWork (countedOn s) (s.posu.position + 1)) = [] :=
      List.filter_eq_nil_iff.2 fun w _ => Bool.eq_false_iff.1 (none w)
    rw [countEvent_true, empty]
    rfl
  · have single : allWork.filter (hasWork (countedOn s) (s.posu.position + 1)) = [w] :=
      eq_singleton_of_nodup (allWork_nodup.filter _) fun b => mem_filter_hasWork.trans (only b)
    rw [countEvent_true, single]
    rfl
  · refine ⟨arrange (countedOn s).orderIndex (allWork.filter (hasWork (countedOn s) (s.posu.position + 1))), _,
      fun w => (arrange_perm _ _).mem_iff.trans mem_filter_hasWork,
      (arrange_perm _ _).nodup_iff.2 (allWork_nodup.filter _), rfl⟩
  · simp only [hasWork, newest, Option.any_eq_true, Bool.and_eq_true, decide_eq_true_eq]
    rfl
  · have test : (decide (it.state = .entering) && decide (posPlus it.start s.itab.geometry.maxLength = p)) = true := by
      simp only [entering, posPlus, here, decide_true, Bool.and_self]
    simp only [doWork, reachForcedEnd, newest, last, test, if_true, forcedEnd]
    rw [posPlus, here]
  · simp [hasWork]
  · obtain ⟨k, hk⟩ := Nat.exists_eq_succ_of_ne_zero (List.count_pos_iff.2 mem).ne'
    rw [doWork, reachBlind_eq, hk, Nat.succ_eq_add_one, blindRequests_succ]
    rfl
  · simp [hasWork, Option.any_eq_true]
  · simp only [doWork, reachEject, oldest, here, if_true]
  · simp only [hasWork, touches, heldCloseAt, Bool.or_eq_true, Bool.and_eq_true, decide_eq_true_eq, Option.any_eq_true, or_assoc]
    refine or_congr ?_ Iff.rfl
    cases (s.chan n).window with
    | none => simp
    | some w =>
      cases hc : w.close with
      | none => simp [hc]
      | some c => simp [hc, Prod.ext_iff]

/-! ## Timers and failovers -/

/-- RNU after the end of a switch, one pending or none: its notice joins the LINE view (R12). -/
theorem endSwitch_rnu (o : SwitchOutcome) (s : State) : (endSwitch o s).rnu = { s.rnu with
    lineView := s.rnu.lineView |||
      if s.posu.pendingSwitch.isSome then (if o = .done then 0x00000002 else 0x00000004) else 0 } := by
  cases h : s.posu.pendingSwitch with
  | none => simp [endSwitch_none h]
  | some p => rw [endSwitch_some_bit h]; rfl

/-- A flag in both views joins the OFFICE view, and at most MESSAGE_LOST beside it (R169, R197). -/
theorem setBoth_officeView (n : Notice) (s : State) : ∃ k : NoticeSet,
    (setBoth n s).rnu.officeView = s.rnu.officeView ||| n.bit ||| k ∧ (k = 0 ∨ k = 0x00010000) :=
  setOffice_officeView n (setLine n s)

/-- RNU but for its two views. -/
def Rnu.unviewed (r : Rnu) : Rnu := { r with lineView := 0, officeView := 0 }

/-- A flag in both views changes nothing of RNU but the views. -/
theorem setBoth_unviewed (n : Notice) (s : State) : (setBoth n s).rnu.unviewed = s.rnu.unviewed := by
  unfold setBoth setOffice callOffice
  split
  · unfold offerNotice
    split <;> rfl
  · rfl

/-- The speed of a failover, by its cases (R16 step 2). -/
theorem holdoverSpeed_eq (r : Int) :
    holdoverSpeed r = if r ≤ 0 then 0 else if 4000000 ≤ r then 4000000 else r.toNat := by
  unfold holdoverSpeed
  split_ifs <;> omega

/-- RNU after a failover: SOURCE_FAIL in both views, after the end of a pending switch. -/
theorem failover_views (cause : FailCause) (m : Monitor) (s : State) : let t := failover cause m s
    t.rnu.lineView = s.rnu.lineView ||| 0x00000001 ||| (if s.posu.pendingSwitch.isSome then 0x00000004 else 0) ∧
    (∃ k : NoticeSet, t.rnu.officeView = s.rnu.officeView ||| 0x00000001 ||| k ∧ (k = 0 ∨ k = 0x00010000)) ∧
    t.rnu.unviewed = s.rnu.unviewed := by
  obtain ⟨u, hu, rnu⟩ : ∃ u, failover cause m s = setBoth .sourceFail u ∧ u.rnu = { s.rnu with
      lineView := s.rnu.lineView ||| if s.posu.pendingSwitch.isSome then 0x00000004 else 0 } :=
    ⟨_, rfl, endSwitch_rnu _ _⟩
  rw [hu]
  refine ⟨?_, ?_, ?_⟩
  · rw [setBoth_lineView, rnu, BitVec.or_assoc, BitVec.or_comm _ (Notice.bit _), ← BitVec.or_assoc]
    rfl
  · have office := setBoth_officeView .sourceFail u
    rwa [rnu] at office
  · rw [setBoth_unviewed, rnu]
    rfl

/-- The silence test runs on a monitor whose reference speed is at least 100 (R14). -/
theorem silenceArmed_eq_some {s : State} {m : Monitor} :
    silenceArmed s = some m ↔ s.posu.monitor = some m ∧ 100 ≤ m.reference := by
  simp [silenceArmed, Option.filter_eq_some_iff]

theorem silenceArmed_eq_none {s : State} (h : ∀ m, s.posu.monitor = some m → m.reference < 100) : silenceArmed s = none := by
  cases armed : silenceArmed s with
  | none => rfl
  | some m =>
    obtain ⟨hm, fast⟩ := silenceArmed_eq_some.1 armed
    exact absurd fast (not_le.2 (h m hm))

/-- What time leaves of POSU: all but the phase of the rate generator. -/
theorem reachTime_posu (t : Stamp) (s : State) :
    (reachTime t s).posu.netCounts = s.posu.netCounts ∧ (reachTime t s).posu.intervals = s.posu.intervals ∧
      (reachTime t s).posu.intervalEnd = s.posu.intervalEnd := by
  have posu := (reachTime_lineKept t s).posu
  exact ⟨(congrArg Posu.netCounts posu :), (congrArg Posu.intervals posu :), (congrArg Posu.intervalEnd posu :)⟩

/-- Settles O21. -/
theorem positionTimersAndFailovers : Obligations.PositionTimersAndFailovers := by
  refine ⟨fun s => ⟨fun hr => ⟨?_, ?_, ?_⟩, fun hr => ⟨fun p t hp ht => ?_, fun none => ?_, fun m hm fast => ?_,
    fun m hm slow => ?_, fun none => ?_, ?_⟩⟩, fun cause m s => ?_⟩
  · change Host.Outcome.next (takeSwitchDeadline s) = _
    unfold takeSwitchDeadline
    split
    · rfl
    · rw [if_pos hr]
  · change Host.Outcome.next (takeSilenceExpiry s) = _
    unfold takeSilenceExpiry
    split
    · rfl
    · rw [if_pos hr]
  · change Host.Outcome.next (takeIntervalEnd s) = _
    rw [takeIntervalEnd, if_pos hr]
  · change Host.Outcome.next (takeSwitchDeadline s) = _
    simp only [takeSwitchDeadline, hp, Option.bind_some, ht, hr, Bool.false_eq_true, if_false]
  · change Host.Outcome.next (takeSwitchDeadline s) = _
    simp only [takeSwitchDeadline, none]
  · change Host.Outcome.next (takeSilenceExpiry s) = _
    simp only [takeSilenceExpiry, silenceArmed_eq_some.2 ⟨hm, fast⟩, hr, Bool.false_eq_true, if_false]
    rfl
  · change Host.Outcome.next (takeSilenceExpiry s) = _
    rw [takeSilenceExpiry, silenceArmed_eq_none fun x hx => Option.some.inj (hm.symm.trans hx) ▸ slow]
  · change Host.Outcome.next (takeSilenceExpiry s) = _
    rw [takeSilenceExpiry, silenceArmed_eq_none fun x hx => nomatch none.symm.trans hx]
  · change Host.Outcome.next (takeIntervalEnd s) = _
    obtain ⟨counts, intervals, ends⟩ := reachTime_posu s.posu.intervalEnd s
    rw [takeIntervalEnd, if_neg (by simp [hr])]
    simp only [counts, intervals, ends]
    rfl
  · obtain ⟨line, office, unviewed⟩ := failover_views cause m s
    have posu := failover_posu cause m s
    have masks := Rnu.mk.inj unviewed
    obtain ⟨response, -, -, -, -, lineMask, officeMask⟩ := masks
    refine ⟨?_, line, office, ?_⟩
    · rw [← holdoverSpeed_eq, posu]
      rfl
    · rw [failover_rest] at lineMask officeMask response ⊢
      exact ⟨rfl, rfl, rfl, rfl, rfl, rfl, rfl, rfl, rfl, lineMask, officeMask, response⟩

end Sys2Proof.Machine
end

section
/-! PROOFS. Idle steps, the timer events that are due, and the clock that they carry forward (O2). -/

namespace Sys2Proof.Machine

/-! ## Idle steps -/

/-- With nothing waiting and nothing due, one stamp unit passes. -/
theorem step_idle {s : State} (hp : s.pending = []) (hd : dueEvents s = []) : step s = .next (elapse 1 s) := by
  simp only [step, hp, whenIdle, hd]

/-- With nothing waiting and one event due, it is taken. -/
theorem step_one {s : State} (hp : s.pending = []) {c : Instr} (hd : dueEvents s = [c]) : step s = exec c s := by
  simp only [step, hp, whenIdle, hd]

/-- With nothing waiting and several events due, one of them is taken, and a free order has been chosen. -/
theorem step_several {s : State} (hp : s.pending = []) {c d : Instr} {l : List Instr} (hd : dueEvents s = c :: d :: l) :
    ∃ e ∈ dueEvents s, step s = exec e (s.choseOrder 1) := by
  have lt : Config.orderChoice s.orderIndex % (l.length + 2) < (c :: d :: l).length := Nat.mod_lt _ (Nat.succ_pos _)
  refine ⟨_, by rw [hd]; exact List.getElem_mem lt, ?_⟩
  simp only [step, hp, whenIdle, hd, List.getElem?_eq_getElem lt]

/-- In device reset only the 10 µs of RESET_DEVICE run down. -/
theorem elapse_held {s : State} (h : inReset s = true) (n : Nat) :
    elapse n s = { s with hold := { s.hold with request := s.hold.request.map fun k => k - n } } := if_pos h

/-! ## Events that are due -/

theorem mem_eventIf {b : Bool} {c d : Instr} : c ∈ eventIf b d ↔ b = true ∧ c = d := by
  cases b <;> simp [eventIf]

theorem timerDue_iff {now : Stamp} {o : Option Stamp} : timerDue now o = true ↔ ∃ t, o = some t ∧ timeUp now t = true := by
  cases o <;> simp [timerDue]

theorem mem_units (n : Unit8) : n ∈ units := by revert n; decide

/-- The events due of a channel and its port (R66, R84). -/
theorem mem_unitDue {s : State} {n : Unit8} {c : Instr} : c ∈ unitDue s n ↔
    ((∃ t, (s.chan n).trigger = some t ∧ timeUp s.stamp t = true) ∧ c = .triggerPulseEnd n) ∨
    ((∃ t w, (s.chan n).strobe = .delaying t w ∧ timeUp s.stamp t = true) ∧ c = .strobeDelayEnd n) ∨
    ((∃ t, (s.chan n).strobe = .high t ∧ timeUp s.stamp t = true) ∧ c = .strobePulseEnd n) ∨
    (((s.port n).current.isSome = true ∧ ∃ t, (s.port n).windowEnd = some t ∧ timeUp s.stamp t = true) ∧
      c = .frameWindowExpiry n) := by
  unfold unitDue
  cases (s.chan n).strobe <;>
    simp [mem_eventIf, timerDue_iff, Bool.and_eq_true]

/-- The generator's next count is due where its phase has come to a whole interval. -/
theorem generatorWait_zero (p : Posu) : generatorWait p = some 0 ↔ 0 < p.synthSpeed ∧ 100000000 ≤ p.genPhase := by
  unfold generatorWait
  split
  · rename_i h
    simp [h]
  · rename_i h
    have pos : 0 < p.synthSpeed := Nat.pos_of_ne_zero h
    rw [Option.some.injEq, Nat.div_eq_zero_iff_lt pos]
    unfold generatorInterval
    omega

/-- The last byte of the frame going out has gone. -/
theorem sendWait_zero (l : Lnk) : sendWait l = 0 ↔ l.tx.length ≤ l.txSent := by
  unfold sendWait
  omega

theorem silenceDue_iff {s : State} : silenceDue s = true ↔ ∃ m, s.posu.monitor = some m ∧ 100 ≤ m.reference ∧
    timeUp s.stamp (m.lastCount + BitVec.ofNat 48 (s.posu.settings.silenceWindow * 100000)) = true := by
  simp only [silenceDue, timerDue_iff, Option.map_eq_some_iff, silenceArmed_eq_some]
  constructor
  · rintro ⟨t, ⟨m, ⟨hm, fast⟩, rfl⟩, up⟩
    exact ⟨m, hm, fast, up⟩
  · rintro ⟨m, hm, fast, up⟩
    exact ⟨_, ⟨m, ⟨hm, fast⟩, rfl⟩, up⟩

theorem filterDue_iff {s : State} {i : CaptureInput} :
    filterDue s i = true ↔ ∃ e, (s.capu.input i).pendingEdge = some e ∧ timeUp s.stamp e.due = true := by
  simp only [filterDue, timerDue_iff, Option.map_eq_some_iff]
  constructor
  · rintro ⟨t, ⟨e, he, rfl⟩, up⟩
    exact ⟨e, he, up⟩
  · rintro ⟨e, he, up⟩
    exact ⟨_, ⟨e, he, rfl⟩, up⟩

/-- The deadline of a pending switch has come (R11). -/
theorem deadlineDue_iff {s : State} : timerDue s.stamp (s.posu.pendingSwitch.bind (·.deadline)) = true ↔
    ∃ p t, s.posu.pendingSwitch = some p ∧ p.deadline = some t ∧ timeUp s.stamp t = true := by
  simp only [timerDue_iff, Option.bind_eq_some_iff]
  constructor
  · rintro ⟨t, ⟨p, hp, ht⟩, up⟩
    exact ⟨p, t, hp, ht, up⟩
  · rintro ⟨p, t, hp, ht, up⟩
    exact ⟨t, ⟨p, hp, ht⟩, up⟩

/-- The events due out of reset, by their blocks. -/
theorem mem_dueEvents {s : State} (h : inReset s = false) {c : Instr} : c ∈ dueEvents s ↔
    ((generatorWait s.posu = some 0 ∧ c = .generatorCount) ∨
      (timerDue s.stamp (s.posu.pendingSwitch.bind (·.deadline)) = true ∧ c = .switchDeadline) ∨
      (silenceDue s = true ∧ c = .silenceExpiry) ∨ (timeUp s.stamp s.posu.intervalEnd = true ∧ c = .speedIntervalEnd)) ∨
    (∃ i, filterDue s i = true ∧ c = .filterExpiry i) ∨
    ((timerDue s.stamp s.trgu.eject.upTo = true ∧ c = .ejectPulseEnd) ∨ ∃ n, c ∈ unitDue s n) ∨
    (timerDue s.stamp s.lnk.hold = true ∧ c = .retrainHoldEnd) ∨
      ((s.lnk.tx.counts = true ∧ sendWait s.lnk = 0) ∧ c = .transmitFrameEnd) := by
  have filters : c ∈ ([CaptureInput.item, .aux1, .aux2, .stop].filter (filterDue s)).map Instr.filterExpiry ↔
      ∃ i, filterDue s i = true ∧ c = .filterExpiry i := by
    simp only [List.mem_map, List.mem_filter, eq_comm (b := c)]
    refine exists_congr fun i => and_congr_left fun _ => and_iff_right ?_
    cases i <;> decide
  have flat : c ∈ units.flatMap (unitDue s) ↔ ∃ n, c ∈ unitDue s n := by
    simp only [List.mem_flatMap, mem_units, true_and]
  unfold dueEvents
  rw [if_neg (by simp [h])]
  simp only [List.mem_append, filters, flat, mem_eventIf, decide_eq_true_eq, Bool.and_eq_true, or_assoc]

/-- Settles O2. -/
theorem idleStepsAndTimersMoveTheClock : Obligations.IdleStepsAndTimersMoveTheClock := by
  refine ⟨fun s hp => ⟨fun hr hd => ?_, fun hr hd => ?_, fun c hd => step_one hp hd, fun c d l hd => step_several hp hd⟩,
    fun s hr => ?_, fun s hr c => ?_, fun t s hr => ⟨fun up => if_pos up, fun ahead => ?_⟩⟩
  · rw [step_idle hp hd, elapse_running hr]
    simp only [Nat.mul_one]
    rfl
  · rw [step_idle hp hd, elapse_held hr]
  · refine ⟨?_, ?_, ?_, ?_, fun i => ?_, ?_, fun n => ⟨?_, ?_, ?_, ?_⟩, ?_, ?_, fun c => ?_⟩
    · simp [mem_dueEvents hr, mem_unitDue, generatorWait_zero]
    · simp [mem_dueEvents hr, mem_unitDue, deadlineDue_iff]
    · simp [mem_dueEvents hr, mem_unitDue, silenceDue_iff]
    · simp [mem_dueEvents hr, mem_unitDue]
    · simp [mem_dueEvents hr, mem_unitDue, filterDue_iff]
    · simp [mem_dueEvents hr, mem_unitDue, timerDue_iff]
    · simp [mem_dueEvents hr, mem_unitDue]
    · simp [mem_dueEvents hr, mem_unitDue]
    · simp [mem_dueEvents hr, mem_unitDue]
    · simp [mem_dueEvents hr, mem_unitDue, Option.isSome_iff_ne_none]
    · simp [mem_dueEvents hr, mem_unitDue, timerDue_iff]
    · simp [mem_dueEvents hr, mem_unitDue, sendWait_zero]
    · simp [mem_dueEvents hr, mem_unitDue]
  · rw [dueEvents, if_pos hr, mem_eventIf, decide_eq_true_eq, and_comm]
  · have stamp : s.stamp + BitVec.ofNat 48 (t - s.stamp).toNat = t := by
      rw [BitVec.ofNat_toNat, BitVec.setWidth_eq, BitVec.add_comm, BitVec.sub_add_cancel]
    dsimp only
    rw [reachTime, if_neg (by simp [ahead]), elapse_running hr, stamp]

end Sys2Proof.Machine
end

section
/-! PROOFS. The reset values, and that the state after reset has what every step keeps (O5). -/

namespace Sys2Proof.Machine

/-! ## Block lists and units after a reset -/

theorem blocksFrom_length (n i : Nat) : (blocksFrom n i).length = n := by
  induction n generalizing i with
  | zero => rfl
  | succ n ih => rw [blocksFrom, List.length_cons, ih]

theorem blocksFrom_getElem (n i k : Nat) (h : k < (blocksFrom n i).length) : (blocksFrom n i)[k] = BitVec.ofNat 14 (i + k) := by
  induction n generalizing i k with
  | zero => exact absurd h (Nat.not_lt_zero k)
  | succ n ih =>
    cases k with
    | zero => rfl
    | succ k =>
      have := ih (i + 1) k (Nat.lt_of_succ_lt_succ h)
      rwa [Nat.add_right_comm, Nat.add_assoc] at this

/-- The pool at reset holds each block at the place of its index. -/
theorem resetPool_getElem (k : Nat) (h : k < (blocksFrom 16384 0).length) : (blocksFrom 16384 0)[k].toNat = k := by
  rw [blocksFrom_length] at h
  rw [blocksFrom_getElem, Nat.zero_add, BitVec.toNat_ofNat]
  exact Nat.mod_eq_of_lt h

/-- A state whose channels, ports, packers and slots are those of a reset. -/
structure FreshUnits (s : State) : Prop where
  chan : ∀ n, s.chan n = {}
  port : ∀ n, s.port n = {}
  packer : ∀ n, s.packer n = {}
  slot : ∀ i : Fin 512, s.fsto.slots[i] = {}

theorem freshUnits_of_default {s : State} (ht : s.trgu = {}) (hp : s.ports = Vector.replicate 8 {})
    (hk : s.packers = Vector.replicate 8 {}) (hf : s.fsto = {}) : FreshUnits s := by
  refine ⟨fun n => ?_, fun n => ?_, fun n => ?_, fun i => ?_⟩
  · simp [State.chan, ht]
  · simp [State.port, hp]
  · simp [State.packer, hk]
  · simp [hf]

theorem deviceReset_freshUnits (h : ResetHold) (s : State) : FreshUnits (deviceReset h s) :=
  freshUnits_of_default rfl rfl rfl rfl

theorem reset_freshUnits : FreshUnits State.reset := freshUnits_of_default rfl rfl rfl rfl

theorem FreshUnits.recordAt {s : State} (f : FreshUnits s) (h : Handle) : recordAt s h = none := by
  unfold Machine.recordAt
  rw [f.slot]
  split <;> rfl

/-- Where every slot is free no handle passes any test. -/
theorem FreshUnits.handlesWhere {s : State} (f : FreshUnits s) (p : FrameRecord → Bool) : handlesWhere s p = [] := by
  unfold Machine.handlesWhere
  rw [List.map_eq_nil_iff, List.filter_eq_nil_iff]
  rintro ⟨i, sl⟩ mem
  have slot := mem_slotTable.1 mem
  rw [f.slot i] at slot
  subst slot
  exact Bool.false_ne_true

/-- Where every slot is free no record holds a block. -/
theorem FreshUnits.blocks {s : State} (f : FreshUnits s) : s.fsto.slots.toList.flatMap Slot.blocks = [] := by
  rw [List.flatMap_eq_nil_iff]
  intro sl mem
  obtain ⟨k, hk, rfl⟩ := List.mem_iff_getElem.1 mem
  have lt : k < 512 := by simpa using hk
  have slot : s.fsto.slots[k] = {} := f.slot ⟨k, lt⟩
  rw [Vector.getElem_toList, slot]
  rfl

/-! ## What every step keeps -/

theorem storeAndViewsOk_reset : StoreAndViewsOk State.reset := ⟨rfl, by decide, by decide, by decide, by decide⟩

theorem linkOk_reset : LinkOk State.reset :=
  ⟨fun _ => ⟨rfl, rfl, rfl, rfl, rfl, rfl, id⟩, fun _ => ⟨rfl, rfl, rfl, rfl⟩, nofun, by simp [State.reset], rfl, by decide,
    by decide, by decide, by decide, False.elim, by decide, by decide, nofun⟩

theorem triggersOk_reset : TriggersOk State.reset := by
  refine ⟨List.nodup_nil, fun _ mem => absurd mem List.not_mem_nil, fun n => ?_⟩
  rw [reset_freshUnits.chan]
  exact ⟨by decide, List.nodup_nil, nofun⟩

theorem unitOk_reset (n : Unit8) : UnitOk State.reset n := by
  unfold UnitOk
  rw [reset_freshUnits.chan, reset_freshUnits.port, reset_freshUnits.packer]
  exact ⟨by simp, nofun, by simp, rfl, fun _ => ⟨rfl, rfl, rfl, rfl, rfl⟩, fun _ => ⟨rfl, nofun⟩, nofun⟩

theorem catalogueOk_reset : CatalogueOk State.reset := by
  refine ⟨?_, List.nodup_nil, fun h => ?_, fun h r hr => ?_, unitOk_reset⟩
  · rw [reset_freshUnits.blocks, List.append_nil]
    exact List.Perm.refl _
  · simp only [reset_freshUnits.recordAt, reduceCtorEq, false_and, exists_false, iff_false]
    exact List.not_mem_nil
  · rw [reset_freshUnits.recordAt] at hr
    cases hr

theorem queuesOk_reset : QueuesOk State.reset := by
  have load : pullLoad State.reset = 0 := by
    rw [pullLoad, awaitCount, reset_freshUnits.handlesWhere]
    rfl
  refine ⟨List.nodup_nil, List.nodup_nil, by rw [load]; exact Nat.zero_le _, fun h => ?_, fun h => ?_, fun h r hr => ?_, nofun,
    nofun, nofun⟩
  · simp only [reset_freshUnits.recordAt, reduceCtorEq, false_and, exists_false, iff_false]
    exact List.not_mem_nil
  · simp only [reset_freshUnits.recordAt, reduceCtorEq, false_and, exists_false, iff_false]
    exact List.not_mem_nil
  · rw [reset_freshUnits.recordAt] at hr
    cases hr

/-- At reset neither view has an event for the office. -/
theorem attn_reset : attn {} = false := by decide

/-- Settles O5: the units by `FreshUnits`, the pool by its block indices, and every other field as it is defined. -/
theorem resetHasItsValuesAndWhatStepsKeep : Obligations.ResetHasItsValuesAndWhatStepsKeep := by
  refine ⟨⟨storeAndViewsOk_reset, positionOk_reset, tableOk_reset _ rfl rfl, linkOk_reset, triggersOk_reset,
    List.Pairwise.nil, catalogueOk_reset, queuesOk_reset⟩, fun h s => ?_⟩
  have fresh := deviceReset_freshUnits h s
  refine ⟨rfl, ⟨rfl, rfl, rfl, rfl, rfl, rfl, rfl, rfl, rfl, rfl⟩, ⟨rfl, rfl, fun i => ?_⟩,
    ⟨rfl, rfl, rfl, rfl, rfl, rfl, rfl, rfl, rfl, rfl, rfl, rfl, rfl, rfl, rfl⟩, fun n => ?_, rfl, fun n => ?_,
    ⟨blocksFrom_length _ _, resetPool_getElem, fresh.slot, rfl, rfl, rfl, rfl, rfl⟩,
    ⟨rfl, rfl, rfl, rfl, rfl, rfl, rfl, rfl, rfl, rfl, rfl, rfl⟩,
    ⟨rfl, rfl, rfl, rfl, rfl, rfl, rfl, rfl, fun n => ?_, rfl, rfl⟩, rfl, rfl, rfl, rfl, rfl, rfl, attn_reset⟩
  · cases i <;> exact ⟨rfl, rfl, rfl, rfl, rfl⟩
  · rw [fresh.chan]
    exact ⟨rfl, rfl, rfl, rfl, rfl, rfl, rfl, rfl, rfl, rfl, rfl, rfl, rfl, rfl⟩
  · exact ⟨fresh.port n, fresh.packer n⟩
  · exact Vector.getElem_replicate _

end Sys2Proof.Machine
end

section
/-! PROOFS. The halts of a STOP edge and of an UNTIL edge (O24). -/

namespace Sys2Proof.Machine

/-! ## The STOP edge -/

/-- What a soft halt leaves as it is, beside what `Calm` speaks of (R68). -/
def State.offChannels (s : State) := (s.itab, s.ports, s.packers, s.fsto, s.rnu, s.trgu.eject)

theorem softHalt_offChannels (n : Unit8) (s : State) : (softHalt n s).offChannels = s.offChannels := by
  obtain ⟨itab, ports, packers, fsto, -, rnu, eject⟩ := softHalt_rest n s
  simp only [State.offChannels, itab, ports, packers, fsto, rnu, eject]

theorem stopHalt_offChannels (s : State) : (stopHalt s).offChannels = s.offChannels := by
  refine foldl_rel (R := fun s t => t.offChannels = s.offChannels) (fun _ => rfl) (fun h k => k.trans h) units (fun n _ s => ?_) s
  split
  · rfl
  · exact softHalt_offChannels n s

theorem units_nodup : units.Nodup := by decide

/-- A STOP edge halts softly each channel whose plan is not ITEM (R70). -/
theorem stopHalt_chan (s : State) (m : Unit8) :
    (stopHalt s).chan m = if (s.chan m).plan = .item then s.chan m else softHalted (s.port m) (s.chan m) := by
  have all := foldl_chan units_nodup (g := fun n s => if (s.chan n).plan = .item then s else softHalt n s)
    (F := fun n s => if (s.chan n).plan = .item then s.chan n else softHalted (s.port n) (s.chan n))
    (P := fun s t => t.ports = s.ports) (fun n s => ?_) (fun n s t ports chan => ?_) (fun n m s => ?_) s m
  · rwa [if_pos (mem_units m)] at all
  · split
    · rfl
    · obtain ⟨-, ports, -⟩ := softHalt_rest n s
      exact ports
  · simp only [State.port, chan, ports]
  · split
    · split
      · rename_i same
        rw [same]
      · rfl
    · exact softHalt_chan n m s

/-- The state of a STOP edge before its channels are halted: speed 0, no switch pending, and the notice (R70). -/
def stopNoticed (s : State) : State := setBoth .stop (endSwitch .cancelledByStop (setSpeedTo 0 s))

theorem stopNoticed_posu (s : State) : (stopNoticed s).posu = { s.posu with
    synthSpeed := 0, genPhase := if s.posu.synthSpeed = 0 then s.posu.genPhase else 0, pendingSwitch := none
    lastSwitch := outcomeAfter .cancelledByStop s } := by
  rw [stopNoticed, setBoth_rest]
  simp only [endSwitch_posu, setSpeedTo, State.setPosu_posu, eq_comm (a := 0)]
  rfl

/-- The notice and the end of the switch change nothing else but FWD. -/
theorem stopNoticed_rest (s : State) : let t := stopNoticed s
    t.stamp = s.stamp ∧ t.pins = s.pins ∧ t.capu = s.capu ∧ t.itab = s.itab ∧ t.trgu = s.trgu ∧ t.ports = s.ports ∧
    t.packers = s.packers ∧ t.fsto = s.fsto ∧ t.lnk = s.lnk := by
  obtain ⟨posu, fwd, rnu, rest⟩ : ∃ p f r, stopNoticed s = { s with posu := p, fwd := f, rnu := r } := by
    unfold stopNoticed
    rw [setBoth_rest, endSwitch_rest]
    exact ⟨_, _, _, rfl⟩
  rw [rest]
  exact ⟨rfl, rfl, rfl, rfl, rfl, rfl, rfl, rfl, rfl⟩

theorem stopNoticed_views (s : State) :
    (stopNoticed s).rnu.lineView =
      s.rnu.lineView ||| 0x00000008 ||| (if s.posu.pendingSwitch.isSome then 0x00000004 else 0) ∧
    ∃ k : NoticeSet, (stopNoticed s).rnu.officeView = s.rnu.officeView ||| 0x00000008 ||| k ∧ (k = 0 ∨ k = 0x00010000) := by
  obtain ⟨u, hu, rnu⟩ : ∃ u, stopNoticed s = setBoth .stop u ∧ u.rnu = { s.rnu with
      lineView := s.rnu.lineView ||| if s.posu.pendingSwitch.isSome then 0x00000004 else 0 } :=
    ⟨_, rfl, endSwitch_rnu _ _⟩
  rw [hu]
  constructor
  · rw [setBoth_lineView, rnu, BitVec.or_assoc, BitVec.or_comm _ (Notice.bit _), ← BitVec.or_assoc]
    rfl
  · have office := setBoth_officeView .stop u
    rwa [rnu] at office

theorem stopAsserted_eq (s : State) : stopAsserted s = stopHalt (stopNoticed s) := rfl

/-- The halts of a STOP edge leave all but the channels as the edge's notice left it. -/
theorem stopAsserted_rest (s : State) : let t := stopAsserted s
    t.posu = (stopNoticed s).posu ∧ t.rnu = (stopNoticed s).rnu ∧
    t.stamp = s.stamp ∧ t.pins = s.pins ∧ t.capu = s.capu ∧ t.itab = s.itab ∧ t.trgu.eject = s.trgu.eject ∧
    t.ports = s.ports ∧ t.packers = s.packers ∧ t.fsto = s.fsto ∧ t.lnk = s.lnk := by
  rw [stopAsserted_eq]
  have still := (stopHalt_calm (stopNoticed s)).still
  have off := stopHalt_offChannels (stopNoticed s)
  simp only [State.still, State.offChannels, Prod.mk.injEq] at still off
  obtain ⟨-, stamp, -, pins, posu, capu, lnk, -⟩ := still
  obtain ⟨itab, ports, packers, fsto, rnu, eject⟩ := off
  obtain ⟨stamp', pins', capu', itab', trgu', ports', packers', fsto', lnk'⟩ := stopNoticed_rest s
  exact ⟨posu, rnu, stamp.trans stamp', pins.trans pins', capu.trans capu', itab.trans itab',
    eject.trans (congrArg Trgu.eject trgu'), ports.trans ports', packers.trans packers', fsto.trans fsto', lnk.trans lnk'⟩

theorem stopAsserted_chan (s : State) (n : Unit8) : (stopAsserted s).chan n =
    if (s.chan n).state = .running ∧ (s.chan n).plan ≠ .item then
      if (s.chan n).queue = [] ∧ (s.chan n).window = none ∧ (s.port n).state.atRest = true then
        { s.chan n with state := .idle, plan := .off, freeRun := none }
      else { s.chan n with state := .halting, freeRun := none }
    else s.chan n := by
  obtain ⟨-, -, -, -, trgu, ports, -⟩ := stopNoticed_rest s
  have chan : (stopNoticed s).chan n = s.chan n := chan_of_trgu trgu n
  have port : (stopNoticed s).port n = s.port n := congrArg (fun v : Vector Port 8 => v[n]) ports
  rw [stopAsserted_eq, stopHalt_chan, chan, port]
  by_cases item : (s.chan n).plan = .item
  · simp [item]
  · by_cases run : (s.chan n).state = .running
    · simp [softHalted, item, run]
    · simp [softHalted, item, run]

/-! ## The UNTIL edge -/

theorem port_modPort (n m : Unit8) (f : Port → Port) (s : State) :
    (modPort n f s).port m = if n = m then f (s.port n) else s.port m := port_setPort _ _ _ _

theorem reportHalted_port (n m : Unit8) (q : List ShotEntry) (s : State) : (reportHalted n q s).port m = s.port m := by
  induction q generalizing s with
  | nil => rfl
  | cons e q ih =>
    rw [reportHalted, ih]
    split
    · rfl
    · have ports := congrArg Prod.snd (sides_of_front (report_front e.item n (.missed .halted) (countSkip n s)))
      exact congrArg (fun v : Vector Port 8 => v[m]) ports

theorem truncateFrame_port_other {n m : Unit8} (h : m ≠ n) (r : TruncReason) (s : State) :
    (truncateFrame n r s).port m = s.port m := by
  rw [truncateFrame, countPort, port_modPort, if_neg h.symm, endFrame_port_other h]

/-- Another channel's frame cut short does not move this port. -/
theorem cutFrame_port_other {n m : Unit8} (h : m ≠ n) (s : State) : (cutFrame n s).port m = s.port m := by
  unfold cutFrame
  split
  · rw [port_modPort, if_neg h.symm]
    change (if _ then _ else _ : State).port m = _
    split
    · exact truncateFrame_port_other h _ s
    · rfl
  · split
    · rw [port_modPort, if_neg h.symm, truncateFrame_port_other h]
    · rw [port_modPort, if_neg h.symm, truncateFrame_port_other h]
    all_goals rfl

/-- Another channel's hard halt does not move this port. -/
theorem hardHalt_port_other {n m : Unit8} (h : m ≠ n) (s : State) : (hardHalt n s).port m = s.port m := by
  unfold hardHalt
  split
  · rfl
  · exact (cutFrame_port_other h _).trans (reportHalted_port n m _ _)

/-- A channel that is hard-halted (R69). -/
def hardHalted (c : Channel) : Channel :=
  if c.state = .idle then c else { c with
    state := .idle, plan := .off, queue := [], freeRun := none, window := none
    skipped := c.skipped + BitVec.ofNat 32 (c.queue.countP fun e => decide (e.kind ≠ .windowClose)) }

theorem hardHalt_chan_eq (n m : Unit8) (s : State) :
    (hardHalt n s).chan m = if n = m then hardHalted (s.chan n) else s.chan m := by
  rw [hardHalt_chan, hardHalted]
  by_cases same : n = m
  · subst same
    by_cases idle : (s.chan n).state = .idle
    · simp [idle]
    · simp [idle]
  · simp [same]

/-- The input and the action that a channel's plan waits for (R57). -/
def awaited (c : Channel) : Option (AuxInput × UntilAction) := c.freeRun.bind (·.stopOn)

/-- A channel at an edge that its plan waits for (R57), with its port as it is. -/
def untilHalted (pos : Pos) (stamp : Stamp) (p : Port) (c : Channel) : Channel :=
  if (awaited c).map (·.2) = some .hard then hardHalted { c with untilMark := some (pos, stamp) }
  else softHalted p { c with untilMark := some (pos, stamp) }

/-- A test of what a plan waits for. -/
theorem any_awaited (c : Channel) (p : AuxInput × UntilAction → Bool) :
    (c.freeRun.any fun t => t.stopOn.any p) = (awaited c).any p := by
  unfold awaited
  cases c.freeRun <;> rfl

theorem awaited_hard (c : Channel) :
    ((awaited c).any fun u => decide (u.2 = .hard)) = true ↔ (awaited c).map (·.2) = some .hard := by
  simp [Option.any_eq_true, Option.map_eq_some_iff]

theorem awaitsEdge_iff {s : State} {input : AuxInput} {n : Unit8} : awaitsEdge s input n = true ↔
    (s.chan n).state = .running ∧ (s.chan n).plan = .untilEdge ∧ (awaited (s.chan n)).map (·.1) = some input := by
  simp only [awaitsEdge, any_awaited, Bool.and_eq_true, decide_eq_true_eq, and_assoc]
  simp [Option.any_eq_true, Option.map_eq_some_iff]

/-- The mark is written, and the halt is the plan's (R57). -/
theorem untilHalt_eq (pos : Pos) (stamp : Stamp) (n : Unit8) (s : State) : untilHalt pos stamp n s =
    let m := s.setChan n { s.chan n with untilMark := some (pos, stamp) }
    if (awaited (s.chan n)).map (·.2) = some .hard then hardHalt n m else softHalt n m := by
  simp only [untilHalt, any_awaited, awaited_hard]
  rfl

theorem untilHalt_chan (pos : Pos) (stamp : Stamp) (n m : Unit8) (s : State) : (untilHalt pos stamp n s).chan m =
    if n = m then untilHalted pos stamp (s.port n) (s.chan n) else s.chan m := by
  have port : ∀ c, (s.setChan n c).port n = s.port n := fun _ => rfl
  rw [untilHalt_eq, untilHalted]
  dsimp only
  split
  · rw [hardHalt_chan_eq, chan_setChan, chan_setChan, if_pos rfl]
    split <;> rfl
  · rw [softHalt_chan, port, chan_setChan, chan_setChan, if_pos rfl]
    split <;> rfl

/-- A port moves only with its own channel: a channel that a halt leaves as it was has its port as it was. -/
theorem untilHalt_port (pos : Pos) (stamp : Stamp) (n m : Unit8) (s : State)
    (same : (untilHalt pos stamp n s).chan m = s.chan m) : (untilHalt pos stamp n s).port m = s.port m := by
  rw [untilHalt_eq] at same ⊢
  dsimp only at same ⊢
  split at same
  · rename_i hard
    rw [if_pos hard]
    by_cases other : m = n
    · subst other
      have idle : (s.chan m).state = .idle := by
        by_contra busy
        rw [hardHalt_chan_eq, chan_setChan, if_pos rfl, if_pos rfl, hardHalted, if_neg busy] at same
        exact busy (congrArg Channel.state same).symm
      rw [hardHalt, if_pos (by rw [chan_setChan, if_pos rfl]; exact idle)]
      rfl
    · exact hardHalt_port_other other _
  · rename_i soft
    rw [if_neg soft]
    obtain ⟨-, ports, -⟩ := softHalt_rest n (s.setChan n { s.chan n with untilMark := some (pos, stamp) })
    exact congrArg (fun v : Vector Port 8 => v[m]) ports

/-- The channels after the halts of an edge, in any order. -/
theorem foldl_untilHalt_chan {l : List Unit8} (hl : l.Nodup) (pos : Pos) (stamp : Stamp) (s : State) (m : Unit8) :
    (l.foldl (fun s n => untilHalt pos stamp n s) s).chan m =
      if m ∈ l then untilHalted pos stamp (s.port m) (s.chan m) else s.chan m := by
  refine foldl_chan hl (g := untilHalt pos stamp) (F := fun n s => untilHalted pos stamp (s.port n) (s.chan n))
    (P := fun s t => ∀ m, t.chan m = s.chan m → t.port m = s.port m) (fun n s m => untilHalt_port pos stamp n m s)
    (fun n s t ports chan => ?_) (fun n m s => untilHalt_chan pos stamp n m s) s m
  rw [ports n chan.symm, chan]

/-- Each halt reads its plan as the edge found it, for no other halt has changed its channel. -/
theorem foldl_untilHalt_eq {l : List Unit8} (hl : l.Nodup) (pos : Pos) (stamp : Stamp) (s : State) {u : State}
    (hu : ∀ n ∈ l, u.chan n = s.chan n) : l.foldl (fun s n => untilHalt pos stamp n s) u =
      l.foldl (fun u n =>
        let m := u.setChan n { u.chan n with untilMark := some (pos, stamp) }
        if (awaited (s.chan n)).map (·.2) = some .hard then hardHalt n m else softHalt n m) u := by
  induction l generalizing u with
  | nil => rfl
  | cons n l ih =>
    obtain ⟨fresh, hl⟩ := List.nodup_cons.1 hl
    rw [List.foldl_cons, List.foldl_cons, ← hu n List.mem_cons_self, ← untilHalt_eq]
    refine ih hl fun m mem => ?_
    rw [untilHalt_chan, if_neg fun e : n = m => fresh (e ▸ mem)]
    exact hu m (List.mem_cons_of_mem _ mem)

/-- The channels that an edge halts, in the order chosen. -/
def edgeOrder (input : AuxInput) (s : State) : List Unit8 := arrange s.orderIndex (units.filter (awaitsEdge s input))

theorem edgeOrder_nodup (input : AuxInput) (s : State) : (edgeOrder input s).Nodup :=
  (arrange_perm _ _).nodup_iff.2 (units_nodup.filter _)

theorem mem_edgeOrder {input : AuxInput} {s : State} {n : Unit8} : n ∈ edgeOrder input s ↔
    (s.chan n).state = .running ∧ (s.chan n).plan = .untilEdge ∧ (awaited (s.chan n)).map (·.1) = some input := by
  rw [edgeOrder, (arrange_perm _ _).mem_iff, List.mem_filter, and_iff_right (mem_units n), awaitsEdge_iff]

/-- A running channel halted by the edge that its plan waits for (R57, R68, R69). -/
theorem untilHalted_running {input : AuxInput} {c : Channel} (pos : Pos) (stamp : Stamp) (p : Port)
    (run : c.state = .running) (plan : c.plan = .untilEdge) (on : (awaited c).map (·.1) = some input) :
    untilHalted pos stamp p c =
      if awaited c = some (input, .hard) then { c with
        state := .idle, plan := .off, queue := [], freeRun := none, window := none, untilMark := some (pos, stamp)
        skipped := c.skipped + BitVec.ofNat 32 (c.queue.countP fun e => decide (e.kind ≠ .windowClose)) }
      else if c.queue = [] ∧ c.window = none ∧ p.state.atRest = true then
        { c with state := .idle, plan := .off, freeRun := none, untilMark := some (pos, stamp) }
      else { c with state := .halting, freeRun := none, untilMark := some (pos, stamp) } := by
  have hard : (awaited c).map (·.2) = some .hard ↔ awaited c = some (input, .hard) := by
    obtain ⟨⟨i, a⟩, ha, rfl⟩ := Option.map_eq_some_iff.1 on
    simp [ha]
  rw [untilHalted]
  simp only [hard]
  split
  · simp [hardHalted, run]
  · simp [softHalted, run, plan]

theorem untilEdge_chan (input : AuxInput) (pos : Pos) (stamp : Stamp) (s : State) (n : Unit8) :
    (untilEdge input pos stamp s).chan n =
      if n ∈ edgeOrder input s then untilHalted pos stamp (s.port n) (s.chan n) else s.chan n :=
  foldl_untilHalt_chan (edgeOrder_nodup input s) pos stamp _ n

/-- An edge that no plan waits for does nothing. -/
theorem untilEdge_none {input : AuxInput} {s : State} (none : ∀ n, awaitsEdge s input n ≠ true) (pos : Pos) (stamp : Stamp) :
    untilEdge input pos stamp s = s := by
  rw [untilEdge, List.filter_eq_nil_iff.2 fun n _ => none n, forEachFree_nil]

/-- Settles O24. -/
theorem stopAndUntilEdgesHaltTheirPlans : Obligations.StopAndUntilEdgesHaltTheirPlans := by
  refine ⟨fun s => ?_, fun input pos stamp s => ⟨⟨edgeOrder input s, (units.filter (awaitsEdge s input)).length - 1,
      edgeOrder_nodup input s, fun n => mem_edgeOrder, ?_⟩,
    fun n => ?_, fun none => ?_, ?_⟩⟩
  · obtain ⟨posu, rnu, kept⟩ := stopAsserted_rest s
    obtain ⟨line, office⟩ := stopNoticed_views s
    refine ⟨posu.trans (stopNoticed_posu s), ?_, ?_, stopAsserted_chan s, kept⟩
    · rw [rnu, line]
    · rwa [rnu]
  · exact foldl_untilHalt_eq (edgeOrder_nodup input s) pos stamp s fun _ _ => rfl
  · by_cases mem : n ∈ edgeOrder input s
    · obtain ⟨run, plan, on⟩ := mem_edgeOrder.1 mem
      calc (untilEdge input pos stamp s).chan n
          _ = untilHalted pos stamp (s.port n) (s.chan n) := by rw [untilEdge_chan, if_pos mem]
          _ = _ := untilHalted_running pos stamp _ run plan on
          _ = _ := (if_pos ⟨run, plan, on⟩).symm
    · calc (untilEdge input pos stamp s).chan n
          _ = s.chan n := by rw [untilEdge_chan, if_neg mem]
          _ = _ := (if_neg fun waits => mem (mem_edgeOrder.2 waits)).symm
  · refine untilEdge_none (fun n waits => ?_) pos stamp
    obtain ⟨run, plan, on⟩ := awaitsEdge_iff.1 waits
    exact none n run plan on
  · obtain ⟨still, table, -⟩ := untilEdge_calm input pos stamp s
    simp only [State.still, State.table, Prod.mk.injEq] at still table
    obtain ⟨-, stamp, -, pins, posu, capu, lnk, -⟩ := still
    obtain ⟨-, numbers, eject⟩ := table
    exact ⟨posu, capu, stamp, pins, lnk, eject, numbers⟩

end Sys2Proof.Machine
end

section
/-! PROOFS. Shot queues and their load (R59): where an entry is placed, and what the load becomes as entries join and leave. -/

namespace Sys2Proof.Machine

/-! ## Places in a queue -/

theorem aheadBy_iff {d : Nat} {a b : Pos} : aheadBy d a b = true ↔ d ≤ (a - b).toNat ∧ (a - b).toNat < 2 ^ 31 := by
  simp [aheadBy]

/-- A target that is not at least 1 ahead has been passed. -/
theorem passed_iff {t now : Pos} : passed t now = true ↔ ¬(1 ≤ (t - now).toNat ∧ (t - now).toNat < 2 ^ 31) := by
  rw [passed, Bool.not_eq_true', ← aheadBy_iff, Bool.not_eq_true]

/-- An entry that another is placed before: one ahead of it, or a WINDOW_OPEN at the position of a WINDOW_CLOSE (R59, R60). -/
def ShotEntry.stops (e x : ShotEntry) : Prop :=
  (1 ≤ (x.pos - e.pos).toNat ∧ (x.pos - e.pos).toNat < 2 ^ 31) ∨
    (e.kind = .windowClose ∧ x.kind = .windowOpen ∧ x.pos = e.pos)

/-- An entry is placed before the first that stops it. -/
theorem placeEntry_split (e : ShotEntry) (q : List ShotEntry) : ∃ a b, q = a ++ b ∧ placeEntry e q = a ++ e :: b ∧
    (∀ x ∈ a, ¬e.stops x) ∧ ∀ x, b.head? = some x → e.stops x := by
  induction q with
  | nil => exact ⟨[], [], rfl, rfl, nofun, nofun⟩
  | cons x t ih =>
    by_cases stop : e.stops x
    · refine ⟨[], x :: t, rfl, ?_, nofun, fun y hy => Option.some.inj hy ▸ stop⟩
      rw [placeEntry]
      rcases stop with ahead | same
      · rw [if_pos (aheadBy_iff.2 ahead), List.nil_append]
      · rw [if_pos same, ite_self, List.nil_append]
    · obtain ⟨a, b, hq, hp, ha, hb⟩ := ih
      refine ⟨x :: a, b, congrArg (x :: ·) hq, ?_, List.forall_mem_cons.2 ⟨stop, ha⟩, hb⟩
      rw [placeEntry, if_neg fun h => stop (Or.inl (aheadBy_iff.1 h)), if_neg fun h => stop (Or.inr h), hp, List.cons_append]

theorem placeEntry_perm (e : ShotEntry) (q : List ShotEntry) : (placeEntry e q).Perm (e :: q) := by
  obtain ⟨a, b, hq, hp, -, -⟩ := placeEntry_split e q
  rw [hp, hq]
  exact List.perm_middle

/-! ## The load of a queue -/

/-- A WINDOW_OPEN whose close is not in the queue. -/
def unclosed (q : List ShotEntry) (e : ShotEntry) : Bool :=
  decide (e.kind = .windowOpen) && q.all fun x => decide (x.item ≠ e.item) || decide (x.kind ≠ .windowClose)

/-- The share of a queue in the load: its entries, and one for each WINDOW_OPEN whose close is not in it. -/
def queueLoad (q : List ShotEntry) : Nat := q.length + q.countP (unclosed q)

/-- The share of the open window in the load. -/
def windowLoad (w : Option Window) : Nat :=
  match w with
  | some w => if w.close = none then 1 else 0
  | none => 0

/-- The items of the WINDOW_OPEN entries of a queue. -/
def openItems (q : List ShotEntry) : List Nat := (q.filter fun e => decide (e.kind = .windowOpen)).map (·.item)

/-- No close of the item is in the queue. -/
theorem queuedClose_isNone (item : Nat) (q : List ShotEntry) :
    (queuedClose item q).isNone = q.all fun x => decide (x.item ≠ item) || decide (x.kind ≠ .windowClose) := by
  rw [queuedClose, Bool.eq_iff_iff, Option.isNone_iff_eq_none, List.find?_eq_none, List.all_eq_true]
  refine forall₂_congr fun x _ => ?_
  by_cases a : x.item = item <;> simp [a]

theorem load_eq (c : Channel) : load c = queueLoad c.queue + windowLoad c.window := by
  have opens : ∀ e, (decide (e.kind = .windowOpen) && (queuedClose e.item c.queue).isNone) = unclosed c.queue e := fun e => by
    rw [queuedClose_isNone, unclosed]
  simp only [load, queueLoad, windowLoad, opens, Option.isNone_iff_eq_none] <;> rfl

theorem windowLoad_le (w : Option Window) : windowLoad w ≤ 1 := by
  unfold windowLoad
  split
  · split <;> decide
  · decide

/-- The load does not hang on the order of the entries. -/
theorem queueLoad_perm {q r : List ShotEntry} (h : q.Perm r) : queueLoad q = queueLoad r := by
  have same : unclosed q = unclosed r := funext fun e => by rw [unclosed, unclosed, h.all_eq]
  rw [queueLoad, queueLoad, h.length_eq, h.countP_eq, same]

/-- An entry at the head of a queue, for what is unclosed in it. -/
theorem unclosed_cons (x : ShotEntry) (q : List ShotEntry) (e : ShotEntry) :
    unclosed (x :: q) e = (unclosed q e && (decide (x.item ≠ e.item) || decide (x.kind ≠ .windowClose))) := by
  rw [unclosed, unclosed, List.all_cons, Bool.and_comm (_ || _), Bool.and_assoc]

/-- An entry that is no WINDOW_CLOSE closes nothing. -/
theorem unclosed_cons_of_ne {x : ShotEntry} (h : x.kind ≠ .windowClose) (q : List ShotEntry) :
    unclosed (x :: q) = unclosed q := funext fun e => by
  rw [unclosed_cons, decide_eq_true h, Bool.or_true, Bool.and_true]

theorem queueLoad_cons (x : ShotEntry) (q : List ShotEntry) :
    queueLoad (x :: q) = q.length + 1 + (q.countP (unclosed (x :: q)) + if unclosed (x :: q) x then 1 else 0) := by
  rw [queueLoad, List.countP_cons, List.length_cons]

/-- An entry that is no WINDOW_CLOSE adds itself, and one more for a WINDOW_OPEN whose close is not there. -/
theorem queueLoad_cons_of_ne {x : ShotEntry} (h : x.kind ≠ .windowClose) (q : List ShotEntry) :
    queueLoad (x :: q) = queueLoad q + 1 + if unclosed q x then 1 else 0 := by
  rw [queueLoad_cons, unclosed_cons_of_ne h, queueLoad]
  omega

/-- With each item's WINDOW_OPEN in the queue once, few of them are of one item. -/
theorem countP_opens_le {q : List ShotEntry} (h : (openItems q).Nodup) (item : Nat) :
    q.countP (fun e => decide (e.kind = .windowOpen) && decide (e.item = item)) ≤ 1 := by
  have count := List.nodup_iff_count_le_one.1 h item
  rw [openItems, List.count, List.countP_map, List.countP_filter] at count
  refine le_of_eq_of_le (List.countP_congr fun e _ => ?_) count
  simp [and_comm]

/-- A queue has no greater load than with one more entry. -/
theorem queueLoad_le_cons {q : List ShotEntry} (h : (openItems q).Nodup) (x : ShotEntry) :
    queueLoad q ≤ queueLoad (x :: q) := by
  by_cases close : x.kind = .windowClose
  · have split : q.countP (unclosed q) ≤ q.countP (unclosed (x :: q)) + 1 := by
      have parts := List.countP_eq_countP_filter_add q (unclosed q) fun e => decide (e.item = x.item)
      have of : (q.filter fun e => decide (e.item = x.item)).countP (unclosed q) ≤ 1 := by
        refine le_trans ?_ (countP_opens_le h x.item)
        rw [List.countP_filter]
        refine List.countP_mono_left fun e _ he => ?_
        simp only [unclosed, Bool.and_eq_true] at he ⊢
        exact ⟨he.1.1, he.2⟩
      have others : (q.filter fun e => !decide (e.item = x.item)).countP (unclosed q) ≤ q.countP (unclosed (x :: q)) := by
        rw [List.countP_filter]
        refine List.countP_mono_left fun e _ he => ?_
        simp only [Bool.and_eq_true, Bool.not_eq_true', decide_eq_false_iff_not] at he
        rw [unclosed_cons, he.1, decide_eq_true (Ne.symm he.2), Bool.true_or, Bool.true_and]
      omega
    rw [queueLoad_cons, queueLoad]
    omega
  · rw [queueLoad_cons_of_ne close]
    omega

theorem openItems_sublist {q r : List ShotEntry} (h : q.Sublist r) : (openItems q).Sublist (openItems r) :=
  (h.filter _).map _

theorem openItems_perm {q r : List ShotEntry} (h : q.Perm r) : (openItems q).Perm (openItems r) := (h.filter _).map _

/-- Entries that leave a queue do not raise its load. -/
theorem queueLoad_sublist {q r : List ShotEntry} (h : q.Sublist r) (distinct : (openItems r).Nodup) :
    queueLoad q ≤ queueLoad r := by
  obtain ⟨gone, perm⟩ := h.exists_perm_append
  replace perm := perm.trans List.perm_append_comm
  rw [queueLoad_perm perm]
  replace distinct := (openItems_perm perm).nodup_iff.1 distinct
  clear perm h
  induction gone with
  | nil => exact Nat.le_refl _
  | cons x gone ih =>
    have rest := distinct.sublist (openItems_sublist (List.sublist_cons_self x (gone ++ q)))
    exact (ih rest).trans (queueLoad_le_cons rest x)

/-- The close of a queued WINDOW_OPEN, where it is the first, takes the place kept for it. -/
theorem queueLoad_cons_close {q : List ShotEntry} {x : ShotEntry} (kind : x.kind = .windowClose)
    (queued : ∃ e ∈ q, e.item = x.item ∧ e.kind = .windowOpen) (first : ∀ e ∈ q, e.item = x.item → e.kind ≠ .windowClose) :
    queueLoad (x :: q) ≤ queueLoad q := by
  obtain ⟨e, mem, item, openKind⟩ := queued
  have was : unclosed q e = true := by
    simp only [unclosed, openKind, Bool.and_eq_true, List.all_eq_true, Bool.or_eq_true, decide_eq_true_eq, item]
    exact ⟨trivial, fun y hy => (em _).symm.imp id fun same => first y hy same⟩
  have not_now : unclosed (x :: q) e = false := by rw [unclosed_cons, item, kind]; simp
  have fewer : q.countP (unclosed (x :: q)) < q.countP (unclosed q) := by
    obtain ⟨a, b, rfl⟩ := List.append_of_mem mem
    have le := fun l : List ShotEntry => List.countP_mono_left (p := unclosed (x :: (a ++ e :: b)))
      (q := unclosed (a ++ e :: b)) (l := l) fun y _ hy => by
        rw [unclosed_cons, Bool.and_eq_true] at hy
        exact hy.1
    have := le a
    have := le b
    simp only [List.countP_append, List.countP_cons, was, not_now]
    simp only [if_true, Bool.false_eq_true, if_false]
    omega
  have self : unclosed (x :: q) x = false := by rw [unclosed, kind]; rfl
  rw [queueLoad_cons, self, queueLoad]
  simp only [Bool.false_eq_true, if_false]
  omega

end Sys2Proof.Machine
end

section
/-! PROOFS. What the operations of channels, ports and records make of the item table and the shot queues (O58): items change by
reports alone, and entries leave the queues. -/

namespace Sys2Proof.Machine

/-! ## Items under reports -/

/-- What reports and the completion they bring make of an item: its entries, its flags and its state alone, and of these neither
a settled entry nor LONG, nor a MISSED_SHOT that is set (R39, R40). -/
structure Reported (a b : Item) : Prop where
  rest : { b with state := a.state, shots := a.shots, flags := a.flags } = a
  state : b.state = a.state ∨ b.state = .complete
  long : b.flags.long = a.flags.long
  missed : a.flags.missedShot = true → b.flags.missedShot = true
  entry : ∀ ch : Unit8, a.shots[ch].settled = true → b.shots[ch] = a.shots[ch]

theorem Reported.refl (a : Item) : Reported a a := ⟨rfl, Or.inl rfl, rfl, id, fun _ _ => rfl⟩

theorem Reported.trans {a b c : Item} (h : Reported a b) (k : Reported b c) : Reported a c where
  rest := (congrArg (fun x : Item => { x with state := a.state, shots := a.shots, flags := a.flags }) k.rest).trans h.rest
  state := k.state.elim (fun e => h.state.imp e.trans e.trans) Or.inr
  long := k.long.trans h.long
  missed := k.missed ∘ h.missed
  entry ch settled := (k.entry ch (by rw [h.entry ch settled]; exact settled)).trans (h.entry ch settled)

theorem Reported.number {a b : Item} (h : Reported a b) : b.number = a.number := by rw [← h.rest]
theorem Reported.start {a b : Item} (h : Reported a b) : b.start = a.start := by rw [← h.rest]

/-- A completion. -/
theorem reported_complete (a : Item) : Reported a { a with state := .complete } :=
  ⟨rfl, Or.inr rfl, rfl, id, fun _ _ => rfl⟩

/-- An entry set, of a channel or another. -/
theorem shots_set (v : Vector Shot 8) (ch k : Unit8) (e : Shot) : (v.set ch e)[k] = if ch = k then e else v[k] := by
  simp only [Fin.getElem_fin, Vector.getElem_set, Fin.ext_iff]

/-- What a report leaves of an item: its state, and all but an entry and flags. -/
theorem apply_reported (a : Item) (ch : Unit8) (r : Report) : Reported a (a.apply ch r) := by
  have set : ∀ e k : Shot, a.shots[ch] = k → k.settled = false →
      ∀ x : Unit8, a.shots[x].settled = true → (a.shots.set ch e)[x] = a.shots[x] := by
    intro e k was unsettled x settled
    rw [shots_set, if_neg]
    rintro rfl
    rw [was, unsettled] at settled
    cases settled
  unfold Item.apply
  split
  · exact ⟨rfl, Or.inl rfl, rfl, id, set _ _ ‹_› rfl⟩
  · exact ⟨rfl, Or.inl rfl, rfl, fun _ => rfl, set _ _ ‹_› rfl⟩
  · exact ⟨rfl, Or.inl rfl, rfl, fun _ => rfl, set _ _ ‹_› rfl⟩
  · exact ⟨rfl, Or.inl rfl, rfl, id, set _ _ ‹_› rfl⟩
  · exact ⟨rfl, Or.inl rfl, rfl, id, set _ _ ‹_› rfl⟩
  · exact ⟨rfl, Or.inl rfl, rfl, id, fun _ _ => rfl⟩
  · exact .refl a

/-! ## Queues -/

/-- Entries leave a queue, and its load does not rise, where no item has two WINDOW_OPEN entries in it. -/
structure QueueKept (c d : Channel) : Prop where
  queue : d.queue.Sublist c.queue
  load : (openItems c.queue).Nodup → load d ≤ load c

theorem QueueKept.refl (c : Channel) : QueueKept c c := ⟨List.Sublist.refl _, fun _ => Nat.le_refl _⟩

theorem QueueKept.trans {a b c : Channel} (h : QueueKept a b) (k : QueueKept b c) : QueueKept a c :=
  ⟨k.queue.trans h.queue, fun distinct => (k.load (distinct.sublist (openItems_sublist h.queue))).trans (h.load distinct)⟩

/-- Entries leave, and the window's share does not rise. -/
theorem QueueKept.of_sublist {c d : Channel} (h : d.queue.Sublist c.queue) (w : windowLoad d.window ≤ windowLoad c.window) :
    QueueKept c d :=
  ⟨h, fun distinct => by
    rw [load_eq, load_eq]
    exact Nat.add_le_add (queueLoad_sublist h distinct) w⟩

/-- A channel changed in neither queue nor window. -/
theorem QueueKept.of_eq {c d : Channel} (hq : d.queue = c.queue) (hw : d.window = c.window) : QueueKept c d :=
  .of_sublist (by rw [hq]) (by rw [hw])

/-! ## Items and queues together -/

/-- From `s` to `t` items change by reports alone. -/
structure ItemsKept (s t : State) : Prop where
  items : List.Forall₂ Reported s.itab.items t.itab.items
  next : t.itab.nextNumber = s.itab.nextNumber
  geometry : t.itab.geometry = s.itab.geometry

/-- From `s` to `t` items change by reports alone, and queues by entries that leave them. -/
structure Kept (s t : State) : Prop extends ItemsKept s t where
  queues : ∀ n, QueueKept (s.chan n) (t.chan n)

/-- The item table and the trigger unit. -/
def State.bench (s : State) := (s.itab, s.trgu)

theorem forall₂_reported_refl (l : List Item) : List.Forall₂ Reported l l := List.forall₂_same.2 fun a _ => .refl a

/-- Items related one by one, and those again. -/
theorem forall₂_trans {R : Item → Item → Prop} (trans : ∀ ⦃a b c⦄, R a b → R b c → R a c) {l m n : List Item}
    (h : List.Forall₂ R l m) (k : List.Forall₂ R m n) : List.Forall₂ R l n := by
  induction h generalizing n with
  | nil => exact k
  | cons x _ ih =>
    obtain - | ⟨y, ys⟩ := k
    exact .cons (trans x y) (ih ys)

theorem ItemsKept.of_eq {s t : State} (h : t.itab = s.itab) : ItemsKept s t :=
  ⟨by rw [h]; exact forall₂_reported_refl _, by rw [h], by rw [h]⟩

theorem ItemsKept.trans {a b c : State} (h : ItemsKept a b) (k : ItemsKept b c) : ItemsKept a c :=
  ⟨forall₂_trans (R := Reported) (fun _ _ _ => Reported.trans) h.items k.items, k.next.trans h.next, k.geometry.trans h.geometry⟩

theorem Kept.of_eq {s t : State} (hi : t.itab = s.itab) (hc : ∀ n, QueueKept (s.chan n) (t.chan n)) : Kept s t :=
  ⟨.of_eq hi, hc⟩

theorem Kept.of_bench {s t : State} (h : t.bench = s.bench) : Kept s t := by
  simp only [State.bench, Prod.mk.injEq] at h
  exact .of_eq h.1 fun n => by rw [chan_of_trgu h.2]; exact .refl _

theorem Kept.refl (s : State) : Kept s s := .of_bench rfl

theorem Kept.trans {a b c : State} (h : Kept a b) (k : Kept b c) : Kept a c :=
  ⟨h.toItemsKept.trans k.toItemsKept, fun n => (h.queues n).trans (k.queues n)⟩

/-- `Kept.trans` read from the last operation back. -/
theorem Kept.before {a b c : State} (k : Kept b c) (h : Kept a b) : Kept a c := h.trans k

/-- Each side of a decision keeps items and queues. -/
theorem kept_ite {c : Prop} [Decidable c] {s x y : State} (hx : Kept s x) (hy : Kept s y) : Kept s (if c then x else y) := by
  split
  · exact hx
  · exact hy

theorem forEachFree_kept {α : Type} {l : List α} {f : α → State → State} (h : ∀ x ∈ l, ∀ s, Kept s (f x s)) (s : State) :
    Kept s (forEachFree l f s) :=
  forEachFree_rel Kept.refl Kept.trans (fun _ _ => .of_bench rfl) h s

theorem foldl_kept {α : Type} {f : State → α → State} (l : List α) (h : ∀ x ∈ l, ∀ s, Kept s (f s x)) (s : State) :
    Kept s (l.foldl f s) :=
  foldl_rel Kept.refl Kept.trans l h s

theorem modItem_kept (n : Nat) {f : Item → Item} (h : ∀ a, Reported a (f a)) (s : State) : Kept s (modItem n f s) where
  items := List.forall₂_map_right_iff.2 (List.forall₂_same.2 fun a _ => by
    split
    · exact h a
    · exact .refl a)
  next := rfl
  geometry := rfl
  queues _ := .refl _

/-- A channel changed. -/
theorem setChan_kept {n : Unit8} {c : Channel} {s : State} (h : QueueKept (s.chan n) c) : Kept s (s.setChan n c) :=
  .of_eq rfl fun m => by
    rw [chan_setChan]
    split
    · rename_i same
      exact same ▸ h
    · exact .refl _

theorem modChan_kept {n : Unit8} {f : Channel → Channel} {s : State} (h : QueueKept (s.chan n) (f (s.chan n))) :
    Kept s (modChan n f s) := setChan_kept h

theorem modPort_kept (n : Unit8) (f : Port → Port) (s : State) : Kept s (modPort n f s) := .of_bench rfl

theorem countPort_kept (n : Unit8) (f : PortCounters → PortCounters) (s : State) : Kept s (countPort n f s) :=
  modPort_kept n _ s

/-! ## Notices, records and lanes: neither items nor channels -/

theorem setOffice_bench (n : Notice) (s : State) : (setOffice n s).bench = s.bench := by rw [setOffice_rest]; rfl

theorem setBoth_bench (n : Notice) (s : State) : (setBoth n s).bench = s.bench := setOffice_bench n (setLine n s)

theorem queueMessage_bench (type : Byte) (body : List Byte) (s : State) : (queueMessage type body s).bench = s.bench := by
  unfold queueMessage
  split
  · rfl
  · exact setOffice_bench _ _

theorem modRecord_bench (h : Handle) (f : FrameRecord → FrameRecord) (s : State) : (modRecord h f s).bench = s.bench := by
  unfold modRecord
  split <;> rfl

theorem freeRecord_bench (h : Handle) (s : State) : (freeRecord h s).bench = s.bench := by
  unfold freeRecord
  split <;> rfl

theorem evict_bench (h : Handle) (s : State) : (evict h s).bench = s.bench := freeRecord_bench h s

theorem evictUntil_bench (n : Nat) (l : List Handle) (s : State) : (evictUntil n l s).bench = s.bench := by
  induction l generalizing s with
  | nil => rfl
  | cons h t ih =>
    unfold evictUntil
    split
    · rfl
    · split
      · exact (ih _).trans (evict_bench h s)
      · exact ih s

theorem takeBlocks_bench (k : Nat) (s : State) : (takeBlocks k s).2.bench = s.bench := by
  unfold takeBlocks
  dsimp only
  split
  · exact setBoth_bench _ _
  · rfl

theorem roomRequest_bench (h : Handle) (full preview : Bool) (s : State) : (roomRequest h full preview s).2.bench = s.bench := by
  unfold roomRequest
  extract_lets n s1
  have h1 : s1.bench = s.bench := evictUntil_bench _ _ s
  by_cases hn : n ≤ s1.fsto.pool.length
  · rw [if_pos hn]
    exact (modRecord_bench _ _ _).trans ((takeBlocks_bench _ _).trans h1)
  · rw [if_neg hn]
    exact h1

theorem allocRecord_bench (n : Unit8) (item : Nat) (pos : Pos) (filling : Bool) (s : State) :
    (allocRecord n item pos filling s).2.bench = s.bench := by
  unfold allocRecord
  split
  · rfl
  · split
    · exact evict_bench _ s
    · exact setBoth_bench _ _

theorem requestShot_bench (n : Unit8) (item : Nat) (pos : Pos) (filling : Bool) (s : State) :
    (requestShot n item pos filling s).2.bench = s.bench := by
  unfold requestShot
  split
  · rfl
  · have alloc := allocRecord_bench n item pos filling s
    revert alloc
    generalize allocRecord n item pos filling s = given
    obtain ⟨h, t⟩ := given
    cases h <;> exact id

theorem joinPull_bench (h : Handle) (s : State) : (joinPull h s).bench = s.bench := by
  unfold joinPull
  refine (modRecord_bench _ _ _).trans ?_
  rfl

theorem applyAutoFull_bench (atEnd : Bool) (h : Handle) (s : State) : (applyAutoFull atEnd h s).bench = s.bench := by
  unfold applyAutoFull
  split
  · split
    · exact joinPull_bench h s
    · exact setOffice_bench _ _
  · rfl

theorem settlePreview_bench (h : Handle) (s : State) : (settlePreview h s).bench = s.bench := by
  unfold settlePreview
  split
  · rfl
  · split <;> exact modRecord_bench _ _ _

theorem handOverPull_bench (h : Handle) (s : State) : (handOverPull h s).bench = s.bench := by
  unfold handOverPull
  split
  · rfl
  · split
    · exact joinPull_bench h s
    · rfl

theorem beginContext_bench (n : Unit8) (h : Handle) (s : State) : (beginContext n h s).bench = s.bench := by
  unfold beginContext
  split <;> rfl

theorem writePreviewLine_bench (n : Unit8) (ctx : FrameContext) (s : State) :
    (writePreviewLine n ctx s).bench = s.bench := by
  unfold writePreviewLine
  split
  · rfl
  · exact modRecord_bench _ _ _

theorem endContext_bench (n : Unit8) (s : State) : (endContext n s).bench = s.bench := by
  unfold endContext
  split
  · rfl
  · dsimp only
    split
    · exact writePreviewLine_bench n _ s
    · rfl

theorem accumulate_bench (n : Unit8) (f : Format) (values : List Nat) (s : State) :
    (accumulate n f values s).bench = s.bench := by
  unfold accumulate
  split
  · rfl
  · split
    · rfl
    · dsimp only
      split
      · rfl
      · exact writePreviewLine_bench n _ s

/-! ## Reports, and the ends of frames -/

theorem completeIfSettled_kept (n : Nat) (s : State) : Kept s (completeIfSettled n s) := by
  unfold completeIfSettled
  split
  · exact .refl s
  · exact kept_ite ((modItem_kept n reported_complete s).trans (.of_bench (queueMessage_bench _ _ _))) (.refl s)

theorem report_kept (n : Nat) (ch : Unit8) (r : Report) (s : State) : Kept s (report n ch r s) :=
  (modItem_kept n (apply_reported · ch r) s).trans (completeIfSettled_kept n _)

theorem reportEnd_kept (h : Handle) (s : State) : Kept s (reportEnd h s) := by
  unfold reportEnd
  split
  · exact .refl s
  · exact kept_ite (report_kept _ _ _ s) (.refl s)

theorem endRecord_kept (h : Handle) (final : RecordState) (s : State) : Kept s (endRecord h final s) := by
  unfold endRecord
  split
  · exact .refl s
  · extract_lets s1 _ s2
    have h2 : s2.bench = s.bench := modRecord_bench _ _ s
    clear_value s2
    exact (Kept.of_bench h2).trans ((reportEnd_kept h s2).trans (.of_bench
      ((applyAutoFull_bench _ _ _).trans ((handOverPull_bench _ _).trans (settlePreview_bench _ _)))))

theorem endFrame_kept (n : Unit8) (final : RecordState) (mark : FrameFlags → FrameFlags) (s : State) :
    Kept s (endFrame n final mark s) := by
  unfold endFrame
  split
  · exact .refl s
  · extract_lets s1 s2 s3
    have h1 : s1.bench = s.bench := (modRecord_bench _ _ _).trans (endContext_bench n s)
    clear_value s1
    have h2 : s2.bench = s.bench := h1
    clear_value s2
    have h3 : Kept s2 s3 := kept_ite (.of_bench (setBoth_bench _ _)) (.refl s2)
    exact (Kept.of_bench h2).trans (h3.trans (endRecord_kept _ _ _))

theorem truncateFrame_kept (n : Unit8) (r : TruncReason) (s : State) : Kept s (truncateFrame n r s) :=
  (endFrame_kept n _ _ s).trans (countPort_kept n _ _)

theorem completeFrame_kept (n : Unit8) (mark : FrameFlags → FrameFlags) (s : State) : Kept s (completeFrame n mark s) :=
  (endFrame_kept n _ _ s).trans (countPort_kept n _ _)

theorem faultTest_kept (n : Unit8) (h : Handle) (s : State) : Kept s (faultTest n h s) := by
  unfold faultTest
  split
  · exact .refl s
  · extract_lets c s1 s2
    have h1 : Kept s s1 := .of_bench (modRecord_bench _ _ s)
    clear_value s1
    have h2 : Kept s s2 := h1.trans (kept_ite (report_kept _ _ _ s1) (.refl s1))
    clear_value s2
    exact kept_ite (kept_ite (h2.trans (.of_bench (setBoth_bench _ _))) h2) (.refl s)

theorem storeLine_kept (n : Unit8) (h : Handle) (line : ConvertedLine) (s : State) : Kept s (storeLine n h line s) := by
  unfold storeLine
  split
  · exact .refl s
  · extract_lets _ s1 s2 s3
    have h2 : Kept s s2 := .of_bench (modRecord_bench h _ s1)
    clear_value s2
    exact h2.trans ((faultTest_kept n h s2).trans (.of_bench ((modRecord_bench _ _ _).trans (accumulate_bench _ _ _ _))))

theorem offerLine_kept (n : Unit8) (samples : List Nat) (s : State) : Kept s (offerLine n samples s).2 := by
  cases hc : (s.port n).current with
  | none =>
    simp only [offerLine, hc]
    exact .refl s
  | some h =>
    cases hr : recordAt s h with
    | none =>
      simp only [offerLine, hc, hr]
      exact .refl s
    | some r =>
      simp -zeta only [offerLine, hc, hr]
      extract_lets s1 line
      have h1 : Kept s s1 := kept_ite (.refl s) (.of_bench (modRecord_bench _ _ s))
      clear_value s1 line
      generalize roomNeeded r (s.packer n).context = need
      obtain ⟨full, preview⟩ := need
      have room := roomRequest_bench h full preview s1
      dsimp only
      generalize roomRequest h full preview s1 = given at room ⊢
      obtain ⟨granted, s2⟩ := given
      cases granted
      · simp only [Bool.false_eq_true, if_false]
        exact (h1.trans (.of_bench room)).trans ((truncateFrame_kept n _ s2).trans (modPort_kept n _ _))
      · simp only [if_true]
        exact (h1.trans (.of_bench room)).trans (storeLine_kept n _ _ s2)

/-! ## Channels -/

/-- A channel that settles keeps its queue and its window (R71). -/
theorem settleChannel_kept (n : Unit8) (s : State) : Kept s (settleChannel n s) :=
  kept_ite (setChan_kept (.of_eq rfl rfl)) (.refl s)

theorem startPulse_kept (n : Unit8) (s : State) : Kept s (startPulse n s) := modChan_kept (.of_eq rfl rfl)
theorem loadShadow_kept (n : Unit8) (s : State) : Kept s (loadShadow n s) := modChan_kept (.of_eq rfl rfl)
theorem countSkip_kept (n : Unit8) (s : State) : Kept s (countSkip n s) := modChan_kept (.of_eq rfl rfl)
theorem armPort_kept (n : Unit8) (h : Handle) (s : State) : Kept s (armPort n h s) := modPort_kept n _ s
theorem fireArea_kept (n : Unit8) (h : Handle) (s : State) : Kept s (fireArea n h s) :=
  (loadShadow_kept n s).trans ((startPulse_kept n _).trans (armPort_kept n h _))

theorem missShot_kept (n : Unit8) (item : Nat) (r : MissReason) (s : State) : Kept s (missShot n item r s) :=
  (report_kept _ _ _ s).trans ((countSkip_kept n _).trans (.of_bench (setBoth_bench _ _)))

theorem takeAreaShot_kept (n : Unit8) (item : Nat) (pos : Pos) (s : State) : Kept s (takeAreaShot n item pos s) := by
  have request : Kept s _ := .of_bench (requestShot_bench n item pos false s)
  unfold takeAreaShot
  split <;> rename_i e <;> rw [e] at request
  · exact request.trans (missShot_kept _ _ _ _)
  · exact request.trans ((fireArea_kept _ _ _).trans (report_kept _ _ _ _))

theorem addMissing_kept (h : Handle) (s : State) : Kept s (addMissing h s) := .of_bench (modRecord_bench _ _ s)

theorem takeLineTrigger_kept (n : Unit8) (p : Pos) (s : State) : Kept s (takeLineTrigger n p s) := by
  unfold takeLineTrigger
  split
  · exact .refl s
  · rename_i w hw
    refine kept_ite ?_ (.refl s)
    extract_lets s1
    have h1 : s1.bench = s.bench := by
      change (if _ then _ else _ : State).bench = _
      split
      · exact modRecord_bench _ _ s
      · rfl
    have hw1 : (s1.chan n).window = some w := by rw [chan_of_trgu (congrArg Prod.snd h1), hw]
    exact (Kept.of_bench h1).trans ((modChan_kept (.of_sublist (List.Sublist.refl _)
      (by rw [hw1]; exact Nat.le_refl _))).trans (startPulse_kept n _))

theorem takeClose_kept (n : Unit8) (s : State) : Kept s (takeClose n s) := by
  unfold takeClose
  split
  · exact .refl s
  · extract_lets s1 s2 s3
    have h1 : Kept s s1 := kept_ite (addMissing_kept _ s) (.refl s)
    clear_value s1
    have h2 : Kept s s2 := h1.trans (kept_ite (completeFrame_kept n id s1) (.refl s1))
    exact h2.trans ((modPort_kept n _ s2).trans ((modChan_kept (.of_sublist (List.Sublist.refl _) (Nat.zero_le _))).trans
      (settleChannel_kept n _)))

theorem takeLooseTarget_kept (n : Unit8) (p : Pos) (s : State) : Kept s (takeLooseTarget n p s) := by
  unfold takeLooseTarget
  split
  · exact .refl s
  · refine kept_ite ?_ (.refl s)
    extract_lets left s1 s2
    have h1 : Kept s s1 := modChan_kept (.of_eq rfl rfl)
    clear_value s1
    have h2 : Kept s1 s2 := by
      refine kept_ite (countSkip_kept n s1) ?_
      have request : Kept s1 _ := .of_bench (requestShot_bench n 0 p false s1)
      split <;> rename_i e <;> rw [e] at request
      · exact request.trans (countSkip_kept n _)
      · exact request.trans (fireArea_kept n _ _)
    exact (h1.trans h2).trans (Kept.before (settleChannel_kept n _) (kept_ite (modChan_kept (.of_eq rfl rfl)) (.refl s2)))

theorem missSchedule_kept (n : Unit8) (item : Nat) (r : MissReason) (s : State) : Kept s (missSchedule n item r s) :=
  (modItem_kept item (apply_reported · n (.missed r)) s).trans ((countSkip_kept n _).trans (.of_bench (setBoth_bench _ _)))

/-- A close that stays known or unknown. -/
theorem windowLoad_map_close (c : Channel) {f : Window → Window} (h : ∀ w, (f w).close = none ↔ w.close = none) :
    windowLoad (c.window.map f) = windowLoad c.window := by
  cases c.window with
  | none => rfl
  | some w => simp only [Option.map_some, windowLoad, h]

theorem dropEntries_kept (item : Nat) (n : Unit8) (s : State) : Kept s (dropEntries item n s) := by
  refine (modChan_kept (.of_sublist List.filter_sublist (windowLoad_map_close _ fun w => ?_).le)).trans (settleChannel_kept n _)
  split
  · exact Option.map_eq_none_iff
  · exact Iff.rfl

theorem leaveQueues_kept (item : Nat) (s : State) : Kept s (leaveQueues item s) :=
  (foldl_kept units (fun n _ s => dropEntries_kept item n s) s).trans (forEachFree_kept (fun n _ s => takeClose_kept n s) _)

/-! ## Entries taken -/

/-- The shadow copied leaves every queue and window. -/
theorem loadShadow_queue (n m : Unit8) (s : State) : ((loadShadow n s).chan m).queue = (s.chan m).queue ∧
    ((loadShadow n s).chan m).window = (s.chan m).window := by
  unfold loadShadow
  rw [chan_modChan]
  split
  · rename_i same
    subst same
    exact ⟨rfl, rfl⟩
  · exact ⟨rfl, rfl⟩

/-- The channels after a WINDOW_OPEN: its item's close has left the queue, or the window is open with that close in it (R63). -/
theorem takeOpen_chan (n m : Unit8) (item : Nat) (pos : Pos) (s : State) :
    QueueKept (s.chan m) ((takeOpen n item pos s).chan m) ∨
      n = m ∧ ((takeOpen n item pos s).chan m).queue = (s.chan m).queue ∧
        windowLoad ((takeOpen n item pos s).chan m).window ≤ if (queuedClose item (s.chan m).queue).isNone then 1 else 0 := by
  have request := requestShot_bench n item pos true s
  unfold takeOpen
  split <;> rename_i e <;> rw [e] at request
  · refine Or.inl (Kept.queues ((Kept.of_bench request).trans (Kept.trans (modChan_kept ?_) (missShot_kept n item _ _))) m)
    exact .of_sublist List.filter_sublist (Nat.le_refl _)
  · rename_i h s1
    extract_lets s2 s3
    have h2 : ∀ k, (s2.chan k).queue = (s.chan k).queue ∧ (s2.chan k).window = (s.chan k).window := fun k => by
      rw [← chan_of_trgu (congrArg Prod.snd request) k]
      exact loadShadow_queue n k s1
    clear_value s2
    have h3 : ∀ k, s3.chan k = s2.chan k := chan_of_trgu
      ((report_trgu _ _ _ _).trans (congrArg Prod.snd (beginContext_bench n h s2)))
    clear_value s3
    rw [chan_modChan]
    by_cases same : n = m
    · subst same
      refine Or.inr ⟨rfl, ?_, ?_⟩
      · rw [if_pos rfl]
        exact (congrArg Channel.queue (h3 n)).trans (h2 n).1
      · rw [if_pos rfl, ← (h2 n).1, ← h3 n, windowLoad]
        cases queuedClose item (s3.chan n).queue <;> simp
    · rw [if_neg same, h3]
      exact Or.inl (.of_eq (h2 m).1 (h2 m).2)

theorem takeOpen_items (n : Unit8) (item : Nat) (pos : Pos) (s : State) : ItemsKept s (takeOpen n item pos s) := by
  have request := requestShot_bench n item pos true s
  unfold takeOpen
  split <;> rename_i e <;> rw [e] at request
  · refine ItemsKept.trans (Kept.of_bench request).toItemsKept ?_
    refine ItemsKept.trans ?_ (missShot_kept n item _ _).toItemsKept
    exact .of_eq rfl
  · rename_i h s1
    extract_lets s2 s3
    have h2 : Kept s s2 := (Kept.of_bench request).trans ((loadShadow_kept n s1).trans (modPort_kept n _ _))
    clear_value s2
    have h3 : Kept s s3 := h2.trans ((Kept.of_bench (beginContext_bench n h s2)).trans (report_kept _ _ _ _))
    exact h3.toItemsKept.trans (.of_eq rfl)

/-- The head entry of a queue taken: what it frees of the load is enough for what it opens (R59, R62, R63, R65). -/
theorem takeHead_kept {n : Unit8} {e : ShotEntry} {q : List ShotEntry} {s : State} (hq : (s.chan n).queue = e :: q) :
    Kept s (takeEntry n e (modChan n (fun c => { c with queue := q }) s)) := by
  have pop : Kept s (modChan n (fun c => { c with queue := q }) s) :=
    modChan_kept (.of_sublist (by rw [hq]; exact List.sublist_cons_self e q) (Nat.le_refl _))
  unfold takeEntry
  split
  · exact pop.trans (takeAreaShot_kept n _ _ _)
  · rename_i kind
    refine ⟨pop.toItemsKept.trans (takeOpen_items n e.item e.pos _), fun m => ?_⟩
    rcases takeOpen_chan n m e.item e.pos (modChan n (fun c => { c with queue := q }) s) with kept | ⟨same, queue, window⟩
    · exact (pop.queues m).trans kept
    · subst same
      rw [chan_modChan, if_pos rfl] at queue window
      dsimp only at queue window
      refine ⟨by rw [queue, hq]; exact List.sublist_cons_self e q, fun _ => ?_⟩
      have unclosed_iff : unclosed q e = (queuedClose e.item q).isNone := by
        rw [queuedClose_isNone, unclosed, decide_eq_true kind, Bool.true_and]
      rw [load_eq, load_eq, queue, hq, queueLoad_cons_of_ne (by rw [kind]; decide), unclosed_iff]
      exact (Nat.add_le_add_left window _).trans (by omega)
  · exact pop.trans (takeClose_kept n _)

theorem takeHeads_kept (n : Unit8) (p : Pos) (k : Nat) (s : State) : Kept s (takeHeads n p k s) := by
  induction k generalizing s with
  | zero => exact .refl s
  | succ k ih =>
    unfold takeHeads
    split
    · exact .refl s
    · rename_i e q hq
      exact kept_ite ((takeHead_kept hq).trans (ih _)) (.refl s)

theorem reachChannel_kept (n : Unit8) (p : Pos) (s : State) : Kept s (reachChannel n p s) := by
  unfold reachChannel
  extract_lets s1 s2
  have h1 : Kept s s1 := kept_ite (takeClose_kept n s) (.refl s)
  exact h1.trans ((takeHeads_kept n p _ s1).trans ((takeLineTrigger_kept n p _).trans ((takeLooseTarget_kept n p _).trans
    (settleChannel_kept n _))))

/-! ## Halts -/

theorem softHalt_kept (n : Unit8) (s : State) : Kept s (softHalt n s) := by
  unfold softHalt
  dsimp only
  split
  · refine Kept.trans (setChan_kept ?_) (settleChannel_kept n _)
    exact .of_eq rfl rfl
  · exact .refl s

theorem reportHalted_kept (n : Unit8) (q : List ShotEntry) (s : State) : Kept s (reportHalted n q s) := by
  induction q generalizing s with
  | nil => exact .refl s
  | cons e q ih =>
    rw [reportHalted]
    refine Kept.trans ?_ (ih _)
    split
    · exact .refl s
    · exact (countSkip_kept n s).trans (report_kept _ _ _ _)

theorem cutFrame_kept (n : Unit8) (s : State) : Kept s (cutFrame n s) := by
  unfold cutFrame
  split
  · extract_lets s1
    have h1 : Kept s s1 := kept_ite (truncateFrame_kept n _ s) (.refl s)
    exact h1.trans ((modChan_kept (.of_sublist (List.Sublist.refl _) (Nat.zero_le _))).trans (modPort_kept n _ _))
  · split
    · exact (truncateFrame_kept n _ s).trans (modPort_kept n _ _)
    · exact (truncateFrame_kept n _ s).trans (modPort_kept n _ _)
    all_goals exact .refl s

theorem hardHalt_kept (n : Unit8) (s : State) : Kept s (hardHalt n s) := by
  refine kept_ite (.refl s) ?_
  exact (modChan_kept (.of_sublist (List.nil_sublist _) (Nat.le_refl _))).trans ((reportHalted_kept n _ _).trans
    ((modChan_kept (.of_eq rfl rfl)).trans ((cutFrame_kept n _).trans (modChan_kept (.of_eq rfl rfl)))))

theorem stopHalt_kept (s : State) : Kept s (stopHalt s) :=
  foldl_kept units (fun n _ s => kept_ite (.refl s) (softHalt_kept n s)) s

theorem untilHalt_kept (pos : Pos) (stamp : Stamp) (n : Unit8) (s : State) : Kept s (untilHalt pos stamp n s) :=
  Kept.trans (modChan_kept (.of_eq rfl rfl)) (kept_ite (hardHalt_kept n _) (softHalt_kept n _))

theorem untilEdge_kept (input : AuxInput) (pos : Pos) (stamp : Stamp) (s : State) : Kept s (untilEdge input pos stamp s) :=
  forEachFree_kept (fun n _ s => untilHalt_kept pos stamp n s) s

end Sys2Proof.Machine
end

section
/-! PROOFS. What a close, a scheduled shot and an item's leaving make of each channel and port (R60, R61, R65, R71). -/

namespace Sys2Proof.Machine

/-! ## Channels that settle, and closes -/

/-- A channel that settles, with its port's state (R71). -/
def settledChan (p : PortState) (c : Channel) : Channel :=
  if c.state = .halting ∧ c.queue = [] ∧ c.window = none ∧ p.atRest = true then
    { c with state := .idle, plan := .off, freeRun := none }
  else c

theorem settledChan_queue (p : PortState) (c : Channel) : (settledChan p c).queue = c.queue := by
  unfold settledChan
  split <;> rfl

theorem settledChan_window (p : PortState) (c : Channel) : (settledChan p c).window = c.window := by
  unfold settledChan
  split <;> rfl

theorem settleChannel_eq (n : Unit8) (s : State) :
    settleChannel n s = s.setChan n (settledChan (s.port n).state (s.chan n)) := by
  have self : s.setChan n (s.chan n) = s := by simp [State.setChan, State.chan]
  simp only [settleChannel, settledChan, Bool.and_eq_true, decide_eq_true_eq, List.isEmpty_iff, Option.isNone_iff_eq_none,
    and_assoc]
  split
  · rfl
  · exact self.symm

theorem settleChannel_chan (n m : Unit8) (s : State) : (settleChannel n s).chan m =
    if n = m then settledChan (s.port n).state (s.chan n) else s.chan m := by
  rw [settleChannel_eq, chan_setChan]

/-- A port's state after the close of its window (R65). -/
def PortState.closed (p : PortState) : PortState := if p = .receiving ∨ p = .draining then .idle else p

/-- A channel whose window closes, with its port's state before (R65). -/
def closedChan (p : PortState) (c : Channel) : Channel :=
  match c.window with
  | none => c
  | some _ => settledChan p.closed { c with window := none }

theorem closedChan_queue (p : PortState) (c : Channel) : (closedChan p c).queue = c.queue := by
  unfold closedChan
  split
  · rfl
  · exact settledChan_queue _ _

theorem closedChan_window (p : PortState) (c : Channel) : (closedChan p c).window = none := by
  unfold closedChan
  split
  · assumption
  · exact settledChan_window _ _

theorem addMissing_front (h : Handle) (s : State) : (addMissing h s).front = s.front := modRecord_front _ _ s

/-- A port gives up a frame that ends, and its timer with it (R98). -/
theorem endFrame_port (n : Unit8) (final : RecordState) (mark : FrameFlags → FrameFlags) (s : State) :
    (endFrame n final mark s).port n = { s.port n with
      current := none, windowEnd := if (s.port n).current.isSome then none else (s.port n).windowEnd } := by
  cases hc : (s.port n).current with
  | none =>
    have same : endFrame n final mark s = s := by simp only [endFrame, hc]
    rw [same]
    exact congrArg (fun c => { s.port n with current := c }) hc
  | some h =>
    have ports := endFrame_ports hc final mark
    exact (congrArg (fun v : Vector Port 8 => v[n]) ports).trans ((port_setPort s n n _).trans (if_pos rfl))

theorem completeFrame_portState (n : Unit8) (mark : FrameFlags → FrameFlags) (s : State) :
    ((completeFrame n mark s).port n).state = (s.port n).state := by
  rw [completeFrame, countPort, port_modPort, if_pos rfl, endFrame_port]

theorem completeFrame_port_other {n m : Unit8} (h : m ≠ n) (mark : FrameFlags → FrameFlags) (s : State) :
    (completeFrame n mark s).port m = s.port m := by
  rw [completeFrame, countPort, port_modPort, if_neg h.symm, endFrame_port_other h]

theorem port_of_front {s t : State} (h : t.front = s.front) (n : Unit8) : t.port n = s.port n :=
  congrArg (fun x : Trgu × Vector Port 8 × Vector Packer 8 => x.2.1[n]) h

theorem port_modChan (n m : Unit8) (f : Channel → Channel) (s : State) : (modChan n f s).port m = s.port m := rfl

theorem settleChannel_port (n m : Unit8) (s : State) : (settleChannel n s).port m = s.port m := by
  rw [settleChannel_eq]
  rfl

/-- The frame of a window that closes, ended where it is FILLING, with an outstanding line counted (R65). -/
def closeFrame (n : Unit8) (w : Window) (s : State) : State :=
  let s1 := if w.outstanding then addMissing w.handle s else s
  if decide ((s1.port n).current = some w.handle) && isFilling s1 w.handle then completeFrame n id s1 else s1

theorem takeClose_none {n : Unit8} {s : State} (h : (s.chan n).window = none) : takeClose n s = s := by
  simp only [takeClose, h]

theorem takeClose_some {n : Unit8} {s : State} {w : Window} (h : (s.chan n).window = some w) :
    takeClose n s = settleChannel n (modChan n (fun c => { c with window := none })
      (modPort n (fun p => { p with state := p.state.closed }) (closeFrame n w s))) := by
  simp only [takeClose, h, closeFrame, PortState.closed]

theorem closeFrame_trgu (n : Unit8) (w : Window) (s : State) : (closeFrame n w s).trgu = s.trgu := by
  unfold closeFrame
  extract_lets s1
  have h1 : s1.trgu = s.trgu := by
    change (if _ then _ else _ : State).trgu = _
    split
    · exact congrArg Prod.fst (addMissing_front _ s)
    · rfl
  split
  · exact (completeFrame_trgu n _ s1).trans h1
  · exact h1

theorem closeFrame_ports (n : Unit8) (w : Window) (s : State) :
    ((closeFrame n w s).port n).state = (s.port n).state ∧ ∀ m, m ≠ n → (closeFrame n w s).port m = s.port m := by
  unfold closeFrame
  extract_lets s1
  have h1 : ∀ m, s1.port m = s.port m := fun m => by
    change (if _ then _ else _ : State).port m = _
    split
    · exact port_of_front (addMissing_front _ s) m
    · rfl
  split
  · exact ⟨by rw [completeFrame_portState, h1], fun m other => by rw [completeFrame_port_other other, h1]⟩
  · exact ⟨by rw [h1], fun m _ => h1 m⟩

/-- A close acts on its own channel (R65). -/
theorem takeClose_chan (n m : Unit8) (s : State) :
    (takeClose n s).chan m = if n = m then closedChan (s.port n).state (s.chan n) else s.chan m := by
  cases hw : (s.chan n).window with
  | none =>
    rw [takeClose_none hw, closedChan, hw]
    split
    · rename_i same
      rw [same]
    · rfl
  | some w =>
    rw [takeClose_some hw, settleChannel_chan, port_modChan, port_modPort, if_pos rfl, chan_modChan, chan_modChan, if_pos rfl,
      chan_modPort, chan_modPort, chan_of_trgu (closeFrame_trgu n w s), chan_of_trgu (closeFrame_trgu n w s),
      (closeFrame_ports n w s).1, closedChan, hw]
    split <;> rfl

theorem takeClose_port_other {n m : Unit8} (h : m ≠ n) (s : State) : (takeClose n s).port m = s.port m := by
  cases hw : (s.chan n).window with
  | none => rw [takeClose_none hw]
  | some w =>
    rw [takeClose_some hw, settleChannel_port, port_modChan, port_modPort, if_neg h.symm, (closeFrame_ports n w s).2 m h]

/-- A channel whose window stays has had no close, and its port stays. -/
theorem takeClose_port {n m : Unit8} {s : State} (same : (takeClose n s).chan m = s.chan m) :
    (takeClose n s).port m = s.port m := by
  by_cases other : m = n
  · subst other
    rw [takeClose_chan, if_pos rfl] at same
    rw [takeClose_none (by rw [← same, closedChan_window])]
  · exact takeClose_port_other other s

/-! ## Shots and closes scheduled -/

/-- A close takes its open window, or its record, or the queue, on its own channel alone (R60). -/
theorem scheduleClose_cases (n : Unit8) (item : Nat) (pos : Pos) (s : State) :
    (∃ w, (s.chan n).window = some w ∧ w.item = item ∧ scheduleClose n item pos s =
      if passed pos s.posu.position then takeClose n s
      else s.setChan n { s.chan n with window := some { w with close := some (pos, .held) } }) ∨
    ((∀ w, (s.chan n).window = some w → w.item ≠ item) ∧ scheduleClose n item pos s =
      if ∃ e ∈ (s.chan n).queue, e.item = item ∧ e.kind = .windowOpen then
        s.setChan n { s.chan n with queue := placeEntry { item := item, pos := pos, kind := .windowClose } (s.chan n).queue }
      else s) := by
  have queued : scheduleClose.queueCloseIfOpen n item pos s =
      if ∃ e ∈ (s.chan n).queue, e.item = item ∧ e.kind = .windowOpen then
        s.setChan n { s.chan n with queue := placeEntry { item := item, pos := pos, kind := .windowClose } (s.chan n).queue }
      else s := by
    simp only [scheduleClose.queueCloseIfOpen, List.any_eq_true, Bool.and_eq_true, decide_eq_true_eq]
    rfl
  unfold scheduleClose
  split
  · rename_i w hw
    by_cases own : w.item = item
    · exact Or.inl ⟨w, hw, own, if_pos own⟩
    · exact Or.inr ⟨fun v hv => by rwa [← Option.some.inj (hw.symm.trans hv)], (if_neg own).trans queued⟩
  · rename_i hw
    exact Or.inr ⟨fun v hv => (by rw [hw] at hv; cases hv), queued⟩

theorem scheduleClose_chan_other {n m : Unit8} (h : m ≠ n) (item : Nat) (pos : Pos) (s : State) :
    (scheduleClose n item pos s).chan m = s.chan m := by
  rcases scheduleClose_cases n item pos s with ⟨w, -, -, eq⟩ | ⟨-, eq⟩ <;> rw [eq] <;> split
  · rw [takeClose_chan, if_neg h.symm]
  · rw [chan_setChan, if_neg h.symm]
  · rw [chan_setChan, if_neg h.symm]
  · rfl

theorem scheduleClose_port_other {n m : Unit8} (h : m ≠ n) (item : Nat) (pos : Pos) (s : State) :
    (scheduleClose n item pos s).port m = s.port m := by
  rcases scheduleClose_cases n item pos s with ⟨w, -, -, eq⟩ | ⟨-, eq⟩ <;> rw [eq] <;> split
  · exact takeClose_port_other h s
  all_goals rfl

theorem scheduleClose_items (n : Unit8) (item : Nat) (pos : Pos) (s : State) : ItemsKept s (scheduleClose n item pos s) := by
  rcases scheduleClose_cases n item pos s with ⟨w, -, -, eq⟩ | ⟨-, eq⟩ <;> rw [eq] <;> split
  · exact (takeClose_kept n s).toItemsKept
  all_goals exact .of_eq rfl

/-- What a close does on its channel hangs on that channel, its port's state and the present position alone. -/
theorem scheduleClose_chan_congr {n : Unit8} {s u : State} (hc : u.chan n = s.chan n)
    (hp : (u.port n).state = (s.port n).state) (hq : u.posu.position = s.posu.position) (item : Nat) (pos : Pos) :
    (scheduleClose n item pos u).chan n = (scheduleClose n item pos s).chan n := by
  have cases_u := scheduleClose_cases n item pos u
  rw [hc, hq] at cases_u
  rcases cases_u with ⟨v, hv, own, eu⟩ | ⟨away, eu⟩ <;> rcases scheduleClose_cases n item pos s with ⟨w, hw, own', es⟩ | ⟨away', es⟩
  · cases Option.some.inj (hv.symm.trans hw)
    rw [eu, es]
    split
    · rw [takeClose_chan, takeClose_chan, if_pos rfl, if_pos rfl, hc, hp]
    · rw [chan_setChan, chan_setChan, if_pos rfl, if_pos rfl]
  · exact absurd own (away' v hv)
  · exact absurd own' (away w hw)
  · rw [eu, es]
    split
    · rw [chan_setChan, chan_setChan, if_pos rfl, if_pos rfl]
    · exact hc

/-- A shot that is missed when it is scheduled. -/
theorem missSchedule_chan (n m : Unit8) (item : Nat) (r : MissReason) (s : State) : (missSchedule n item r s).chan m =
    if n = m then { s.chan n with skipped := (s.chan n).skipped + 1 } else s.chan m := by
  rw [missSchedule, chan_of_trgu (congrArg Prod.fst (setBoth_front .missedShot _)), countSkip, chan_modChan]
  rfl

/-- A shot is scheduled in one of three ways (R60). -/
theorem scheduleShot_eq (n : Unit8) (item : Nat) (pos : Pos) (kind : ShotKind) (s : State) : scheduleShot n item pos kind s =
    if passed pos s.posu.position = true then missSchedule n item .tooLate s
    else if (kind = .areaShot ∧ 16 ≤ load (s.chan n)) ∨ (kind ≠ .areaShot ∧ 15 ≤ load (s.chan n)) then
      missSchedule n item .queueFull s
    else s.setChan n { s.chan n with queue := placeEntry { item := item, pos := pos, kind := kind } (s.chan n).queue } := by
  unfold scheduleShot
  by_cases area : kind = .areaShot
  · simp only [area, if_true, true_and, ne_eq, not_true_eq_false, false_and, or_false]
    rfl
  · simp only [area, if_false, false_and, ne_eq, not_false_eq_true, true_and, false_or]
    rfl

theorem scheduleShot_chan_other {n m : Unit8} (h : m ≠ n) (item : Nat) (pos : Pos) (kind : ShotKind) (s : State) :
    (scheduleShot n item pos kind s).chan m = s.chan m := by
  rw [scheduleShot_eq]
  split
  · rw [missSchedule_chan, if_neg h.symm]
  · split
    · rw [missSchedule_chan, if_neg h.symm]
    · rw [chan_setChan, if_neg h.symm]

theorem scheduleShot_items (n : Unit8) (item : Nat) (pos : Pos) (kind : ShotKind) (s : State) :
    ItemsKept s (scheduleShot n item pos kind s) := by
  rw [scheduleShot_eq]
  split
  · exact (missSchedule_kept n item _ s).toItemsKept
  · split
    · exact (missSchedule_kept n item _ s).toItemsKept
    · exact .of_eq rfl

/-- The entries of a queue after a shot is scheduled: those before, and at most the one. -/
theorem mem_scheduleShot {n : Unit8} {item : Nat} {pos : Pos} {kind : ShotKind} {s : State} {e : ShotEntry}
    (h : e ∈ ((scheduleShot n item pos kind s).chan n).queue) :
    e ∈ (s.chan n).queue ∨ e = { item := item, pos := pos, kind := kind } := by
  rw [scheduleShot_eq] at h
  split at h
  · rw [missSchedule_chan, if_pos rfl] at h
    exact Or.inl h
  · split at h
    · rw [missSchedule_chan, if_pos rfl] at h
      exact Or.inl h
    · rw [chan_setChan, if_pos rfl] at h
      exact (List.mem_cons.1 ((placeEntry_perm _ _).mem_iff.1 h)).symm

/-! ## An item that leaves the queues -/

/-- A window of the item keeps a known close detached (R61). -/
def detached (item : Nat) (w : Window) : Window :=
  if w.item = item then { w with close := w.close.map fun k => (k.1, .detached) } else w

/-- A channel after an item's entries leave it, with its port's state (R61). -/
def droppedChan (item : Nat) (p : PortState) (c : Channel) : Channel :=
  settledChan p { c with queue := c.queue.filter fun e => decide (e.item ≠ item), window := c.window.map (detached item) }

theorem dropEntries_chan (item : Nat) (n m : Unit8) (s : State) : (dropEntries item n s).chan m =
    if n = m then droppedChan item (s.port n).state (s.chan n) else s.chan m := by
  rw [dropEntries, settleChannel_chan, port_modChan, chan_modChan, chan_modChan, if_pos rfl]
  split <;> rfl

theorem dropEntries_port (item : Nat) (n m : Unit8) (s : State) : (dropEntries item n s).port m = s.port m := by
  rw [dropEntries, settleChannel_port, port_modChan]

theorem foldl_dropEntries_chan (item : Nat) (s : State) (m : Unit8) :
    (units.foldl (fun s n => dropEntries item n s) s).chan m = droppedChan item (s.port m).state (s.chan m) := by
  have all := foldl_chan units_nodup (g := dropEntries item) (F := fun n s => droppedChan item (s.port n).state (s.chan n))
    (P := fun s t => ∀ m, t.port m = s.port m) (fun n s m => dropEntries_port item n m s)
    (fun n s t ports chan => by rw [ports, chan]) (fun n m s => dropEntries_chan item n m s) s m
  rwa [if_pos (mem_units m)] at all

/-- Closes of several channels, in any order. -/
theorem foldl_takeClose_chan {l : List Unit8} (hl : l.Nodup) (s : State) (m : Unit8) :
    (l.foldl (fun s n => takeClose n s) s).chan m =
      if m ∈ l then closedChan (s.port m).state (s.chan m) else s.chan m :=
  foldl_chan hl (g := takeClose) (F := fun n s => closedChan (s.port n).state (s.chan n))
    (P := fun s t => ∀ m, t.chan m = s.chan m → t.port m = s.port m) (fun _ _ _ => takeClose_port)
    (fun n s t ports chan => by rw [ports n chan.symm, chan]) (fun n m s => takeClose_chan n m s) s m

/-- The window of a channel is the item's, with no close known. -/
def Channel.openEnded (item : Nat) (c : Channel) : Bool := c.window.any fun w => decide (w.item = item) && w.close.isNone

/-- A detached close is a known one. -/
theorem droppedChan_openEnded (item : Nat) (p : PortState) (c : Channel) :
    (droppedChan item p c).openEnded item = c.openEnded item := by
  rw [Channel.openEnded, Channel.openEnded, droppedChan, settledChan_window]
  cases c.window with
  | none => rfl
  | some w => by_cases own : w.item = item <;> simp [detached, own]

theorem openEnded_eq (s : State) (item : Nat) (n : Unit8) : openEnded s item n = (s.chan n).openEnded item := by
  unfold openEnded Channel.openEnded
  cases (s.chan n).window <;> rfl

/-- The channels whose window an item's leaving closes, in the order chosen. -/
def leavingOrder (item : Nat) (s : State) : List Unit8 := arrange s.orderIndex (units.filter (openEnded s item))

theorem leavingOrder_nodup (item : Nat) (s : State) : (leavingOrder item s).Nodup :=
  (arrange_perm _ _).nodup_iff.2 (units_nodup.filter _)

theorem mem_leavingOrder {item : Nat} {s : State} {n : Unit8} :
    n ∈ leavingOrder item s ↔ (s.chan n).openEnded item = true := by
  rw [leavingOrder, (arrange_perm _ _).mem_iff, List.mem_filter, and_iff_right (mem_units n), openEnded_eq]

/-- The windows closed of an item that leaves, in any order. -/
theorem closeOpenEnded_chan (item : Nat) (s : State) (n : Unit8) :
    (forEachFree (units.filter (openEnded s item)) (fun n s => takeClose n s) s).chan n =
      if (s.chan n).openEnded item = true then closedChan (s.port n).state (s.chan n) else s.chan n := by
  refine (foldl_takeClose_chan (leavingOrder_nodup item s) _ n).trans ?_
  simp only [mem_leavingOrder]
  rfl

/-- The channels after an item has left the queues: its entries are gone, a known close of its window is detached, and a window
without one is closed (R61). -/
theorem leaveQueues_chan (item : Nat) (s : State) (n : Unit8) :
    ((leaveQueues item s).chan n).queue = ((s.chan n).queue.filter fun e => decide (e.item ≠ item)) ∧
    ((leaveQueues item s).chan n).window =
      if (s.chan n).openEnded item = true then none else (s.chan n).window.map (detached item) := by
  rw [leaveQueues, closeOpenEnded_chan, foldl_dropEntries_chan, droppedChan_openEnded]
  split
  · exact ⟨(closedChan_queue _ _).trans (settledChan_queue _ _), closedChan_window _ _⟩
  · exact ⟨settledChan_queue _ _, settledChan_window _ _⟩

end Sys2Proof.Machine
end

section
/-! PROOFS. What keeps the item numbers, the starts, ENTERING and the shot queues (O58): what changes items by their numbers, starts
and states alone, entries that join a queue, items that join the table, and items that leave it. -/

namespace Sys2Proof.Machine

/-! ## The parts of the invariant -/

/-- No live item has the next item number (R31). -/
def NextFree (t : Itab) : Prop := ∀ it ∈ t.items, it.number ≠ t.nextNumber

/-- An item with its number and its start as they were, and ENTERING only if it was. -/
structure SameRow (a b : Item) : Prop where
  number : b.number = a.number
  start : b.start = a.start
  entering : b.state = .entering → a.state = .entering

/-- From `s` to `t` items keep their rows, and queues lose entries alone. -/
structure TriggersKept (s t : State) : Prop where
  rows : List.Forall₂ SameRow s.itab.items t.itab.items
  next : t.itab.nextNumber = s.itab.nextNumber
  geometry : t.itab.geometry = s.itab.geometry
  queues : ∀ n, QueueKept (s.chan n) (t.chan n)

/-- From `s` to `t` what `TriggersOk` says is kept, and so are rising starts. -/
structure TriggersSafe (s t : State) : Prop where
  ok : TriggersOk s → TriggersOk t
  rise : StartsRise s.itab → StartsRise t.itab

/-- The same where the next item number is free, and the starts lie within half the position range. -/
structure TriggersStep (s t : State) : Prop where
  ok : TriggersOk s → NextFree s.itab → TriggersOk t
  rise : StartsRise s.itab → WithinHalf s.itab → StartsRise t.itab

theorem SameRow.refl (a : Item) : SameRow a a := ⟨rfl, rfl, id⟩

theorem SameRow.trans {a b c : Item} (h : SameRow a b) (k : SameRow b c) : SameRow a c :=
  ⟨k.number.trans h.number, k.start.trans h.start, h.entering ∘ k.entering⟩

theorem Reported.row {a b : Item} (h : Reported a b) : SameRow a b :=
  ⟨h.number, h.start, fun e => h.state.elim (fun same => same.symm.trans e) fun complete => by rw [complete] at e; cases e⟩

theorem ItemsKept.rows {s t : State} (h : ItemsKept s t) : List.Forall₂ SameRow s.itab.items t.itab.items :=
  h.items.imp fun _ _ => Reported.row

theorem Kept.triggers {s t : State} (h : Kept s t) : TriggersKept s t :=
  ⟨h.rows, h.next, h.geometry, h.queues⟩

/-! ## Rows -/

/-- A live item found by its number, in a table of the same numbers. -/
theorem find_of_forall₂ {R : Item → Item → Prop} (number : ∀ {a b}, R a b → b.number = a.number) {l m : List Item}
    (h : List.Forall₂ R l m) {n : Nat} {a : Item} (ha : l.find? (fun it => it.number == n) = some a) :
    ∃ b, m.find? (fun it => it.number == n) = some b ∧ R a b := by
  induction h with
  | nil => cases ha
  | @cons x y l m hxy _ ih =>
    rw [List.find?_cons] at ha ⊢
    rw [number hxy]
    split at ha
    · cases ha
      exact ⟨y, rfl, hxy⟩
    · exact ih ha

theorem ItemsKept.find {s t : State} (h : ItemsKept s t) {n : Nat} {a : Item} (ha : findItem s n = some a) :
    ∃ b, findItem t n = some b ∧ Reported a b := find_of_forall₂ Reported.number h.items ha

/-- Rows that are the same give the same numbers, starts and places. -/
theorem map_eq_of_forall₂ {α : Type} {R : Item → Item → Prop} {f : Item → α} (hf : ∀ {a b}, R a b → f b = f a)
    {l m : List Item} (h : List.Forall₂ R l m) : m.map f = l.map f := by
  induction h with
  | nil => rfl
  | cons hab _ ih => rw [List.map_cons, List.map_cons, hf hab, ih]

theorem mem_of_forall₂ {R : Item → Item → Prop} {l m : List Item} (h : List.Forall₂ R l m) {b : Item} (hb : b ∈ m) :
    ∃ a ∈ l, R a b := by
  induction h with
  | nil => exact absurd hb List.not_mem_nil
  | @cons x y l m hxy _ ih =>
    rcases List.mem_cons.1 hb with rfl | hb
    · exact ⟨x, List.mem_cons_self, hxy⟩
    · obtain ⟨a, ha, row⟩ := ih hb
      exact ⟨a, List.mem_cons_of_mem x ha, row⟩

/-- All but the newest item are not ENTERING. -/
theorem dropLast_of_forall₂ {l m : List Item} (h : List.Forall₂ SameRow l m) (ok : ∀ it ∈ l.dropLast, it.state ≠ .entering) :
    ∀ it ∈ m.dropLast, it.state ≠ .entering := by
  have rows : List.Forall₂ SameRow l.dropLast m.dropLast := by
    rw [List.dropLast_eq_take, List.dropLast_eq_take, h.length_eq]
    exact List.forall₂_take _ h
  intro b hb e
  obtain ⟨a, ha, row⟩ := mem_of_forall₂ rows hb
  exact ok a ha (row.entering e)

/-! ## Starts -/

/-- How far each of several positions lies ahead of the first. -/
def offsets (l : List Pos) : List Nat := l.map fun p => (p - l.headD 0).toNat

/-- Positions that rise from the first by a gap each. -/
def Rising (gap : Nat) (l : List Pos) : Prop := (offsets l).Pairwise fun a b => a + gap ≤ b

/-- The starts of a table, oldest first. -/
def Itab.starts (t : Itab) : List Pos := t.items.map (·.start)

theorem map_startOffset (t : Itab) : t.items.map (startOffset t) = offsets t.starts := by
  unfold startOffset Itab.starts offsets
  cases t.items with
  | nil => rfl
  | cons o l => rw [List.map_map]; rfl

theorem startsRise_iff (t : Itab) : StartsRise t ↔ Rising t.geometry.minGap t.starts := by
  rw [StartsRise, map_startOffset, Rising]

theorem withinHalf_iff (t : Itab) : WithinHalf t ↔ ∀ x ∈ offsets t.starts, x < 2 ^ 31 := by
  rw [← map_startOffset, List.forall_mem_map, WithinHalf]

/-- Positions that leave a rising list leave it rising. -/
theorem Rising.sublist {gap : Nat} {l m : List Pos} (h : Rising gap l) (sub : m.Sublist l) : Rising gap m := by
  cases m with
  | nil => exact List.Pairwise.nil
  | cons p r =>
    unfold Rising offsets at h ⊢
    generalize l.headD 0 = o at h
    rw [List.pairwise_map] at h ⊢
    replace h := h.sublist sub
    have ahead : ∀ q ∈ p :: r, (p - o).toNat ≤ (q - o).toNat ∧ (q - p).toNat = (q - o).toNat - (p - o).toNat := by
      have from_first : ∀ q ∈ p :: r, (p - o).toNat ≤ (q - o).toNat := List.forall_mem_cons.2
        ⟨Nat.le_refl _, fun q hq => (Nat.le_add_right _ _).trans ((List.pairwise_cons.1 h).1 q hq)⟩
      intro q hq
      have le := from_first q hq
      refine ⟨le, ?_⟩
      simp only [BitVec.toNat_sub] at le ⊢
      have := p.isLt
      have := q.isLt
      have := o.isLt
      omega
    refine h.imp_of_mem fun {x y} hx hy hxy => ?_
    obtain ⟨lx, ex⟩ := ahead x hx
    obtain ⟨ly, ey⟩ := ahead y hy
    rw [List.headD_cons, ex, ey]
    omega

/-- A position that joins, ahead of the last by the gap, and within half the range of it. -/
theorem Rising.append {gap : Nat} {l : List Pos} {p : Pos} (h : Rising gap l) (half : ∀ x ∈ offsets l, x < 2 ^ 31)
    (ahead : ∀ q, l.getLast? = some q → gap ≤ (p - q).toNat ∧ (p - q).toNat < 2 ^ 31) : Rising gap (l ++ [p]) := by
  rcases List.eq_nil_or_concat' l with rfl | ⟨l, q, rfl⟩
  · exact List.pairwise_singleton _ _
  · have head : (l ++ [q] ++ [p]).headD 0 = (l ++ [q]).headD 0 := by cases l <;> rfl
    unfold Rising offsets at h ⊢
    unfold offsets at half
    rw [head]
    generalize (l ++ [q]).headD 0 = o at h half
    obtain ⟨gap_le, below⟩ := ahead q List.getLast?_concat
    have far : (p - o).toNat = (q - o).toNat + (p - q).toNat := by
      have near : (q - o).toNat < 2 ^ 31 := half _ (List.mem_map_of_mem (List.mem_append_right l (List.mem_singleton.2 rfl)))
      simp only [BitVec.toNat_sub] at near below ⊢
      have := p.isLt
      have := q.isLt
      have := o.isLt
      omega
    have upto : ∀ x ∈ (l ++ [q]).map (fun q => (q - o).toNat), x ≤ (q - o).toNat := by
      rw [List.map_append, List.pairwise_append] at h
      rw [List.map_append]
      intro x hx
      rcases List.mem_append.1 hx with hx | hx
      · exact (Nat.le_add_right _ _).trans (h.2.2 x hx _ (List.mem_singleton.2 rfl))
      · exact (List.mem_singleton.1 hx).le
    rw [List.map_append, List.pairwise_append]
    refine ⟨h, List.pairwise_singleton _ _, fun x hx y hy => ?_⟩
    have := upto x hx
    rw [List.map_singleton, List.mem_singleton] at hy
    omega

/-! ## What is kept -/

theorem TriggersKept.numbers {s t : State} (h : TriggersKept s t) :
    t.itab.items.map (·.number) = s.itab.items.map (·.number) := map_eq_of_forall₂ (f := (·.number)) SameRow.number h.rows

theorem TriggersKept.starts {s t : State} (h : TriggersKept s t) : t.itab.starts = s.itab.starts :=
  map_eq_of_forall₂ (f := (·.start)) SameRow.start h.rows

/-- A live item stays live, and not ENTERING where it was not. -/
theorem TriggersKept.live {s t : State} (h : TriggersKept s t) {n : Nat} {a : Item} (ha : findItem s n = some a) :
    ∃ b, findItem t n = some b ∧ SameRow a b := find_of_forall₂ SameRow.number h.rows ha

theorem TriggersKept.ok {s t : State} (h : TriggersKept s t) (ok : TriggersOk s) : TriggersOk t := by
  obtain ⟨numbers, newest, queues⟩ := ok
  refine ⟨h.numbers ▸ numbers, dropLast_of_forall₂ h.rows newest, fun n => ?_⟩
  obtain ⟨room, opens, live⟩ := queues n
  refine ⟨((h.queues n).load opens).trans room, opens.sublist (openItems_sublist (h.queues n).queue), fun e he => ?_⟩
  obtain ⟨a, ha, closed⟩ := live e ((h.queues n).queue.subset he)
  obtain ⟨b, hb, row⟩ := h.live ha
  exact ⟨b, hb, fun close entering => closed close (row.entering entering)⟩

theorem TriggersKept.safe {s t : State} (h : TriggersKept s t) : TriggersSafe s t :=
  ⟨h.ok, fun rise => by rwa [startsRise_iff, h.geometry, h.starts, ← startsRise_iff]⟩

theorem TriggersSafe.refl (s : State) : TriggersSafe s s := ⟨id, id⟩

theorem TriggersSafe.trans {a b c : State} (h : TriggersSafe a b) (k : TriggersSafe b c) : TriggersSafe a c :=
  ⟨k.ok ∘ h.ok, k.rise ∘ h.rise⟩

theorem TriggersSafe.step {s t : State} (h : TriggersSafe s t) : TriggersStep s t :=
  ⟨fun ok _ => h.ok ok, fun rise _ => h.rise rise⟩

theorem TriggersStep.trans_safe {a b c : State} (h : TriggersStep a b) (k : TriggersSafe b c) : TriggersStep a c :=
  ⟨fun ok free => k.ok (h.ok ok free), fun rise half => k.rise (h.rise rise half)⟩

theorem TriggersKept.trans_step {a b c : State} (h : TriggersKept a b) (k : TriggersStep b c) : TriggersStep a c := by
  refine ⟨fun ok free => k.ok (h.ok ok) ?_, fun rise half => k.rise (h.safe.rise rise) ?_⟩
  · have numbers : ∀ x ∈ a.itab.items.map (·.number), x ≠ a.itab.nextNumber := List.forall_mem_map.2 free
    rw [← h.numbers, ← h.next] at numbers
    exact fun it hit => numbers _ (List.mem_map_of_mem hit)
  · rwa [withinHalf_iff, h.starts, ← withinHalf_iff]

theorem Kept.safe {s t : State} (h : Kept s t) : TriggersSafe s t := h.triggers.safe

/-- Items changed in neither number nor start, with a state that is not ENTERING unless it was. -/
theorem modItem_triggers (n : Nat) {f : Item → Item} (h : ∀ a, SameRow a (f a)) (s : State) :
    TriggersKept s (modItem n f s) where
  rows := List.forall₂_map_right_iff.2 (List.forall₂_same.2 fun a _ => by
    split
    · exact h a
    · exact .refl a)
  next := rfl
  geometry := rfl
  queues _ := .refl _

/-- A change of ITAB in none of its items, its next number and its geometry, and of no channel. -/
theorem TriggersKept.of_items {s t : State} (hi : t.itab.items = s.itab.items) (hn : t.itab.nextNumber = s.itab.nextNumber)
    (hg : t.itab.geometry = s.itab.geometry) (hc : ∀ n, t.chan n = s.chan n) : TriggersKept s t :=
  ⟨by rw [hi]; exact List.forall₂_same.2 fun a _ => .refl a, hn, hg, fun n => by rw [hc]; exact .refl _⟩

/-! ## Entries that join a queue -/

/-- An entry of a live item joins its queue, where the load allows it. -/
theorem queueEntry_ok {n : Unit8} {e : ShotEntry} {s : State} (ok : TriggersOk s)
    (room : queueLoad (e :: (s.chan n).queue) + windowLoad (s.chan n).window ≤ 16)
    (fresh : e.kind = .windowOpen → e.item ∉ openItems (s.chan n).queue)
    (live : ∃ it, findItem s e.item = some it ∧ (e.kind = .windowClose → it.state ≠ .entering)) :
    TriggersOk (s.setChan n { s.chan n with queue := placeEntry e (s.chan n).queue }) := by
  obtain ⟨numbers, newest, queues⟩ := ok
  refine ⟨numbers, newest, fun m => ?_⟩
  rw [chan_setChan]
  split
  · obtain ⟨-, opens, all⟩ := queues n
    have perm := placeEntry_perm e (s.chan n).queue
    refine ⟨?_, ?_, fun x hx => ?_⟩
    · rwa [load_eq, queueLoad_perm perm]
    · refine (openItems_perm perm).nodup_iff.2 ?_
      by_cases kind : e.kind = .windowOpen
      · have cons : openItems (e :: (s.chan n).queue) = e.item :: openItems (s.chan n).queue := by simp [openItems, kind]
        rw [cons]
        exact List.nodup_cons.2 ⟨fresh kind, opens⟩
      · have cons : openItems (e :: (s.chan n).queue) = openItems (s.chan n).queue := by simp [openItems, kind]
        rwa [cons]
    · rcases List.mem_cons.1 (perm.mem_iff.1 hx) with rfl | hx
      · exact live
      · exact all x hx
  · exact queues m

/-- A shot of a live item that has no entry in the queue. -/
theorem scheduleShot_ok {n : Unit8} {item : Nat} {kind : ShotKind} {s : State} (ok : TriggersOk s) (pos : Pos)
    (shot : kind ≠ .windowClose) (live : ∃ it, findItem s item = some it) (none : ∀ e ∈ (s.chan n).queue, e.item ≠ item) :
    TriggersOk (scheduleShot n item pos kind s) := by
  rw [scheduleShot_eq]
  split
  · exact (missSchedule_kept n item _ s).safe.ok ok
  · split
    · exact (missSchedule_kept n item _ s).safe.ok ok
    · rename_i room
      obtain ⟨it, hit⟩ := live
      refine queueEntry_ok ok ?_ (fun _ mem => ?_) ⟨it, hit, fun close => absurd close shot⟩
      · rw [load_eq] at room
        rw [queueLoad_cons_of_ne shot]
        by_cases area : kind = .areaShot
        · subst area
          have closed : unclosed (s.chan n).queue { item := item, pos := pos, kind := .areaShot } = false := rfl
          simp only [true_and, ne_eq, not_true_eq_false, false_and, or_false] at room
          rw [if_neg (by rw [closed]; decide)]
          omega
        · simp only [area, false_and, ne_eq, not_false_eq_true, true_and, false_or] at room
          split <;> omega
      · obtain ⟨e, he, same⟩ := List.mem_map.1 mem
        exact none e (List.mem_of_mem_filter he) same

/-- A close of a live item whose end is known, and which has none in the queue. -/
theorem scheduleClose_ok {n : Unit8} {item : Nat} {it : Item} {s : State} (ok : TriggersOk s) (pos : Pos)
    (live : findItem s item = some it) (ended : it.state ≠ .entering)
    (first : ∀ e ∈ (s.chan n).queue, e.item = item → e.kind ≠ .windowClose) :
    TriggersOk (scheduleClose n item pos s) := by
  rcases scheduleClose_cases n item pos s with ⟨w, hw, -, eq⟩ | ⟨-, eq⟩ <;> rw [eq] <;> split
  · exact (takeClose_kept n s).safe.ok ok
  · refine (Kept.safe (setChan_kept ?_)).ok ok
    exact .of_sublist (List.Sublist.refl _) (Nat.zero_le _)
  · rename_i queued
    have room := (ok.2.2 n).1
    refine queueEntry_ok ok ?_ nofun ⟨it, live, fun _ => ended⟩
    rw [load_eq] at room
    exact (Nat.add_le_add_right (queueLoad_cons_close rfl queued first) _).trans room
  · exact ok

end Sys2Proof.Machine
end

section
/-! PROOFS. Items that join the table, end and leave it, for what every step keeps of the triggers (O58). -/

namespace Sys2Proof.Machine

/-! ## Operations of one unit each -/

/-- A channel with its port. -/
def State.unit (s : State) (n : Unit8) := (s.chan n, s.port n)

/-- What holds before operations of one unit each, in their order, holds after them, where each keeps it as it finds its own unit:
none has changed another's. -/
theorem foldl_own {g : State → Unit8 → State} (other : ∀ u ch m, m ≠ ch → (g u ch).unit m = u.unit m) {P : State → Prop}
    {l : List Unit8} (hl : l.Nodup) {s : State} (step : ∀ u, ∀ ch ∈ l, u.unit ch = s.unit ch → P u → P (g u ch)) (hs : P s) :
    P (l.foldl g s) := by
  suffices go : ∀ u, (∀ m ∈ l, u.unit m = s.unit m) → P u → P (l.foldl g u) from go s (fun _ _ => rfl) hs
  clear hs
  induction l with
  | nil => exact fun _ _ h => h
  | cons ch l ih =>
    obtain ⟨fresh, hl⟩ := List.nodup_cons.1 hl
    intro u same hu
    refine ih hl (fun u m hm => step u m (List.mem_cons_of_mem _ hm)) _ (fun m hm => ?_)
      (step u ch List.mem_cons_self (same ch List.mem_cons_self) hu)
    rw [other u ch m fun e => fresh (e ▸ hm)]
    exact same m (List.mem_cons_of_mem _ hm)

/-- What such operations leave of each unit: what its own operation made of it. -/
theorem foldl_unit {g : State → Unit8 → State} (other : ∀ u ch m, m ≠ ch → (g u ch).unit m = u.unit m) {l : List Unit8}
    (hl : l.Nodup) (s : State) (n : Unit8) :
    (n ∉ l → (l.foldl g s).unit n = s.unit n) ∧
    (n ∈ l → ∃ u, u.unit n = s.unit n ∧ (l.foldl g s).unit n = (g u n).unit n) := by
  induction l generalizing s with
  | nil => exact ⟨fun _ => rfl, fun h => absurd h List.not_mem_nil⟩
  | cons ch l ih =>
    obtain ⟨fresh, hl⟩ := List.nodup_cons.1 hl
    obtain ⟨out, inside⟩ := ih hl (g s ch)
    rw [List.foldl_cons]
    by_cases same : n = ch
    · subst same
      exact ⟨fun h => absurd List.mem_cons_self h, fun _ => ⟨s, rfl, out fresh⟩⟩
    · rw [other s ch n same] at out inside
      exact ⟨fun h => out fun mem => h (List.mem_cons_of_mem _ mem), fun h => inside ((List.mem_cons.1 h).resolve_left same)⟩

theorem chan_of_unit {s t : State} {n : Unit8} (h : t.unit n = s.unit n) : t.chan n = s.chan n := congrArg Prod.fst h

theorem port_of_unit {s t : State} {n : Unit8} (h : t.unit n = s.unit n) : t.port n = s.port n := congrArg Prod.snd h

theorem scheduleShot_unit_other (item : Nat) (pos : Pos) (kind : ShotKind) (s : State) {n m : Unit8} (h : m ≠ n) :
    (scheduleShot n item pos kind s).unit m = s.unit m := by
  refine Prod.ext (scheduleShot_chan_other h item pos kind s) ?_
  have miss : ∀ r, (missSchedule n item r s).port m = s.port m := fun r => port_of_front (setBoth_front .missedShot _) m
  change (scheduleShot n item pos kind s).port m = s.port m
  rw [scheduleShot_eq]
  split
  · exact miss _
  · split
    · exact miss _
    · rfl

theorem scheduleClose_unit_other (item : Nat) (pos : Pos) (s : State) {n m : Unit8} (h : m ≠ n) :
    (scheduleClose n item pos s).unit m = s.unit m :=
  Prod.ext (scheduleClose_chan_other h item pos s) (scheduleClose_port_other h item pos s)

/-! ## A new item's entries -/

/-- The item of an entry set to PENDING, as its channel is entered. -/
def pendingAt (n : Nat) (ch : Unit8) (s : State) : State := modItem n (fun i => { i with shots := i.shots.set ch .pending }) s

theorem pendingAt_triggers (n : Nat) (ch : Unit8) (s : State) : TriggersKept s (pendingAt n ch s) := by
  refine modItem_triggers n (fun i => ?_) s
  exact ⟨rfl, rfl, id⟩

/-- A channel that takes no part is not entered. -/
theorem enterChannel_out {it : Item} {s : State} {ch : Unit8} (h : takesPart (s.chan ch) = false) : enterChannel it s ch = s := by
  rw [enterChannel, h]
  rfl

/-- A channel that takes part is entered by its port's kind (R35, R41). -/
theorem enterChannel_in {it : Item} {s : State} {ch : Unit8} (h : takesPart (s.chan ch) = true) : enterChannel it s ch =
    match (s.port ch).kind with
    | .area => scheduleShot ch it.number (posPlus it.start (s.chan ch).offset) .areaShot (pendingAt it.number ch s)
    | .scan =>
      match it.endPos with
      | none => scheduleShot ch it.number (posPlus it.start (s.chan ch).offset) .windowOpen (pendingAt it.number ch s)
      | some e => scheduleClose ch it.number (posPlus e (s.chan ch).offset)
          (scheduleShot ch it.number (posPlus it.start (s.chan ch).offset) .windowOpen (pendingAt it.number ch s)) := by
  rw [enterChannel, if_pos h]
  rfl

theorem enterChannel_unit_other (it : Item) (s : State) (ch m : Unit8) (h : m ≠ ch) :
    (enterChannel it s ch).unit m = s.unit m := by
  cases part : takesPart (s.chan ch) with
  | false => rw [enterChannel_out part]
  | true =>
    rw [enterChannel_in part]
    split
    · exact scheduleShot_unit_other _ _ _ _ h
    · split
      · exact scheduleShot_unit_other _ _ _ _ h
      · exact (scheduleClose_unit_other _ _ _ h).trans (scheduleShot_unit_other _ _ _ _ h)

/-- A channel entered for a live item that no entry of its queue names. -/
theorem enterChannel_ok {it i : Item} {s : State} {ch : Unit8} (ok : TriggersOk s) (live : findItem s it.number = some i)
    (ended : it.endPos ≠ none → i.state ≠ .entering) (none : ∀ e ∈ (s.chan ch).queue, e.item ≠ it.number) :
    TriggersOk (enterChannel it s ch) ∧ ∃ j, findItem (enterChannel it s ch) it.number = some j ∧ SameRow i j := by
  cases part : takesPart (s.chan ch) with
  | false =>
    rw [enterChannel_out part]
    exact ⟨ok, i, live, .refl i⟩
  | true =>
    have pending := pendingAt_triggers it.number ch s
    obtain ⟨j, hj, row⟩ := pending.live live
    have ok1 := pending.ok ok
    have shot : ∀ kind, kind ≠ .windowClose →
        TriggersOk (scheduleShot ch it.number (posPlus it.start (s.chan ch).offset) kind (pendingAt it.number ch s)) ∧
        ∃ k, findItem (scheduleShot ch it.number (posPlus it.start (s.chan ch).offset) kind (pendingAt it.number ch s))
          it.number = some k ∧ SameRow i k := fun kind hk => by
      obtain ⟨k, found, reported⟩ := (scheduleShot_items ch it.number (posPlus it.start (s.chan ch).offset) kind
        (pendingAt it.number ch s)).find hj
      exact ⟨scheduleShot_ok ok1 _ hk ⟨j, hj⟩ none, k, found, row.trans reported.row⟩
    rw [enterChannel_in part]
    split
    · exact shot .areaShot (by decide)
    · split
      · exact shot .windowOpen (by decide)
      · rename_i e he
        obtain ⟨ok2, k, found, row2⟩ := shot .windowOpen (by decide)
        have ends : k.state ≠ .entering := fun x => ended (by rw [he]; exact Option.some_ne_none e) (row2.entering x)
        obtain ⟨l, found', reported⟩ := (scheduleClose_items ch it.number (posPlus e (s.chan ch).offset) _).find found
        refine ⟨scheduleClose_ok ok2 _ found ends fun x hx same => ?_, l, found', ?_⟩
        · rcases mem_scheduleShot hx with old | rfl
          · exact absurd same (none x old)
          · nofun
        · exact row2.trans reported.row

/-- The table with an item appended, before its entries are set (R32). -/
def appended (it : Item) (s : State) : State := s.setItab { s.itab with
  items := s.itab.items ++ [it]
  nextNumber := nextNumberAfter s.itab.nextNumber
  assigned := min 8388608 (s.itab.assigned + 1) }

theorem appendItem_eq (it : Item) (s : State) : appendItem it s = units.foldl (enterChannel it) (appended it s) := rfl

/-- A live item is found as before in a table with one more at its tail. -/
theorem findItem_appended_of_some {it a : Item} {s : State} {n : Nat} (h : findItem s n = some a) :
    findItem (appended it s) n = some a := by
  unfold findItem at h ⊢
  rw [appended, State.setItab_itab, List.find?_append, h]
  rfl

theorem findItem_none {s : State} {n : Nat} : findItem s n = none ↔ ∀ it ∈ s.itab.items, it.number ≠ n := by
  simp [findItem]

/-- A new item is found by its number. -/
theorem findItem_appended_self {it : Item} {s : State} (free : ∀ i ∈ s.itab.items, i.number ≠ it.number) :
    findItem (appended it s) it.number = some it := by
  have none := findItem_none.2 free
  unfold findItem at none ⊢
  rw [appended, State.setItab_itab, List.find?_append, none]
  simp

/-- An item of a new number joins a table whose items are not ENTERING. -/
theorem appended_ok {it : Item} {s : State} (ok : TriggersOk s) (free : ∀ i ∈ s.itab.items, i.number ≠ it.number)
    (still : ∀ i ∈ s.itab.items, i.state ≠ .entering) : TriggersOk (appended it s) := by
  obtain ⟨numbers, -, queues⟩ := ok
  refine ⟨?_, ?_, fun n => ?_⟩
  · change ((s.itab.items ++ [it]).map (·.number)).Nodup
    rw [List.map_append, List.nodup_append]
    refine ⟨numbers, List.nodup_singleton _, fun a ha b hb => ?_⟩
    obtain ⟨i, hi, rfl⟩ := List.mem_map.1 ha
    rw [List.mem_singleton.1 hb]
    exact free i hi
  · change ∀ i ∈ (s.itab.items ++ [it]).dropLast, i.state ≠ .entering
    rwa [List.dropLast_concat]
  · obtain ⟨room, opens, live⟩ := queues n
    refine ⟨room, opens, fun e he => ?_⟩
    obtain ⟨a, ha, closed⟩ := live e he
    exact ⟨a, findItem_appended_of_some ha, closed⟩

/-- A new item's queues are set in bounds. -/
theorem appendItem_ok {it : Item} {s : State} (ok : TriggersOk s) (free : ∀ i ∈ s.itab.items, i.number ≠ it.number)
    (still : ∀ i ∈ s.itab.items, i.state ≠ .entering) (ended : it.endPos ≠ none → it.state ≠ .entering) :
    TriggersOk (appendItem it s) := by
  rw [appendItem_eq]
  refine (foldl_own (enterChannel_unit_other it) (s := appended it s)
    (P := fun u => TriggersOk u ∧ ∃ i, findItem u it.number = some i ∧ SameRow it i) units_nodup
    (fun u ch _ same hu => ?_) ⟨appended_ok ok free still, it, findItem_appended_self free, .refl it⟩).1
  obtain ⟨oku, i, found, row⟩ := hu
  obtain ⟨ok', j, found', row'⟩ := enterChannel_ok (ch := ch) oku found (fun e x => ended e (row.entering x)) fun e he item => by
    rw [chan_of_unit same] at he
    obtain ⟨a, ha, -⟩ := (ok.2.2 ch).2.2 e he
    rw [item] at ha
    exact absurd (findItem_none.2 free) (by rw [ha]; exact Option.some_ne_none a)
  exact ⟨ok', j, found', row.trans row'⟩

theorem enterChannel_rows (it : Item) (s : State) (ch : Unit8) :
    List.Forall₂ SameRow s.itab.items (enterChannel it s ch).itab.items := by
  have pending := (pendingAt_triggers it.number ch s).rows
  cases part : takesPart (s.chan ch) with
  | false =>
    rw [enterChannel_out part]
    exact List.forall₂_same.2 fun a _ => .refl a
  | true =>
    rw [enterChannel_in part]
    split
    · exact forall₂_trans (R := SameRow) (fun _ _ _ => SameRow.trans) pending (scheduleShot_items _ _ _ _ _).rows
    · split
      · exact forall₂_trans (R := SameRow) (fun _ _ _ => SameRow.trans) pending (scheduleShot_items _ _ _ _ _).rows
      · exact forall₂_trans (R := SameRow) (fun _ _ _ => SameRow.trans) pending ((scheduleShot_items _ _ _ _ _).trans (scheduleClose_items _ _ _ _)).rows

theorem appendItem_rows (it : Item) (s : State) :
    List.Forall₂ SameRow (s.itab.items ++ [it]) (appendItem it s).itab.items := by
  rw [appendItem_eq]
  exact foldl_own (enterChannel_unit_other it) (s := appended it s)
    (P := fun u => List.Forall₂ SameRow (s.itab.items ++ [it]) u.itab.items) units_nodup
    (fun u ch _ _ rows => forall₂_trans (R := SameRow) (fun _ _ _ => SameRow.trans) rows (enterChannel_rows it u ch))
    (List.forall₂_same.2 fun a _ => .refl a)

/-- A calm operation changes of ITAB its records alone. -/
theorem Calm.itab {s t : State} (h : Calm s t) : t.itab = { s.itab with items := t.itab.items } :=
  congrArg (fun x : Itab => { x with items := t.itab.items }) (congrArg Prod.fst h.table)

/-- The table after an item has joined it, but for the items. -/
theorem appendItem_table (it : Item) (s : State) : (appendItem it s).itab.nextNumber = nextNumberAfter s.itab.nextNumber ∧
    (appendItem it s).itab.geometry = s.itab.geometry := by
  rw [appendItem_eq]
  have calm : Calm (appended it s) (units.foldl (enterChannel it) (appended it s)) :=
    foldl_calm (f := enterChannel it) units (fun ch _ s => enterChannel_calm it s ch) (appended it s)
  rw [calm.itab]
  exact ⟨rfl, rfl⟩

theorem newest_mem {t : Itab} {it : Item} (h : newest t = some it) : it ∈ t.items := List.mem_of_getLast? h

/-- With the newest not ENTERING, none is. -/
theorem still_of_newest {s : State} (ok : TriggersOk s) (h : ∀ i, newest s.itab = some i → i.state ≠ .entering) :
    ∀ i ∈ s.itab.items, i.state ≠ .entering := by
  obtain ⟨-, older, -⟩ := ok
  rcases List.eq_nil_or_concat' s.itab.items with nil | ⟨l, x, eq⟩
  · rw [nil]
    exact fun i hi => absurd hi List.not_mem_nil
  · rw [newest, eq, List.getLast?_concat] at h
    rw [eq, List.dropLast_concat] at older
    rw [eq]
    exact List.forall_mem_append.2 ⟨older, List.forall_mem_singleton.2 (h x rfl)⟩

/-- An item of the next number joins where the newest is not ENTERING, ahead of its start by MIN_ITEM_GAP. -/
theorem appendItem_step {it : Item} {s : State} (number : it.number = s.itab.nextNumber)
    (still : ∀ i, newest s.itab = some i → i.state ≠ .entering) (ended : it.endPos ≠ none → it.state ≠ .entering)
    (ahead : ∀ i, newest s.itab = some i → aheadBy s.itab.geometry.minGap it.start i.start = true) :
    TriggersStep s (appendItem it s) := by
  refine ⟨fun ok free => appendItem_ok ok (fun i hi => number ▸ free i hi) (still_of_newest ok still) ended, fun rise half => ?_⟩
  have starts : (appendItem it s).itab.starts = s.itab.starts ++ [it.start] :=
    (map_eq_of_forall₂ (f := (·.start)) SameRow.start (appendItem_rows it s)).trans List.map_append
  rw [startsRise_iff, starts, (appendItem_table it s).2]
  refine ((startsRise_iff _).1 rise).append ((withinHalf_iff _).1 half) fun q hq => ?_
  rw [Itab.starts, List.getLast?_map, Option.map_eq_some_iff] at hq
  obtain ⟨i, hi, rfl⟩ := hq
  exact aheadBy_iff.1 (ahead i hi)

end Sys2Proof.Machine
end

section
/-! PROOFS. A new item's entries (R35, R41), the end of an item (R37, R38) and its leaving of the table (R43, R139), for what every
step keeps of the triggers (O58). -/

namespace Sys2Proof.Machine

/-! ## What a new item's shots change of the items -/

/-- From `s` to `t` the items of number `n` change in entries and flags alone, and the others not at all. -/
def EntriesOnly (n : Nat) (s t : State) : Prop := ∃ f : Item → Item,
  (∀ i, f i = { i with shots := (f i).shots, flags := (f i).flags }) ∧
    t.itab.items = s.itab.items.map fun i => if i.number = n then f i else i

theorem EntriesOnly.of_eq {n : Nat} {s t : State} (h : t.itab = s.itab) : EntriesOnly n s t :=
  ⟨id, fun _ => rfl, by simp [h]⟩

theorem EntriesOnly.trans {n : Nat} {a b c : State} (h : EntriesOnly n a b) (k : EntriesOnly n b c) : EntriesOnly n a c := by
  obtain ⟨f, hf, hb⟩ := h
  obtain ⟨g, hg, hc⟩ := k
  refine ⟨fun i => g (f i), fun i => ?_, ?_⟩
  · exact (hg (f i)).trans (congrArg (fun x : Item => { x with shots := (g (f i)).shots, flags := (g (f i)).flags }) (hf i))
  · rw [hc, hb, List.map_map]
    refine List.map_congr_left fun i _ => ?_
    have number : (f i).number = i.number := by rw [hf i]
    by_cases own : i.number = n
    · simp only [Function.comp, own, if_true, number]
    · simp only [Function.comp, own, if_false]

theorem modItem_entries {n : Nat} {f : Item → Item} (h : ∀ i, f i = { i with shots := (f i).shots, flags := (f i).flags })
    (s : State) : EntriesOnly n s (modItem n f s) := ⟨f, h, rfl⟩

/-- A report changes an item's entries and flags alone. -/
theorem apply_entries (it : Item) (ch : Unit8) (r : Report) :
    it.apply ch r = { it with shots := (it.apply ch r).shots, flags := (it.apply ch r).flags } := by
  unfold Item.apply
  split <;> rfl

theorem pendingAt_entries (n : Nat) (ch : Unit8) (s : State) : EntriesOnly n s (pendingAt n ch s) := by
  refine modItem_entries (fun i => ?_) s
  rfl

theorem missSchedule_entries (n : Unit8) (item : Nat) (r : MissReason) (s : State) :
    EntriesOnly item s (missSchedule n item r s) :=
  (modItem_entries (apply_entries · n (.missed r)) s).trans (.of_eq (congrArg Prod.fst (setBoth_bench .missedShot _)))

theorem scheduleShot_entries (n : Unit8) (item : Nat) (pos : Pos) (kind : ShotKind) (s : State) :
    EntriesOnly item s (scheduleShot n item pos kind s) := by
  rw [scheduleShot_eq]
  split
  · exact missSchedule_entries n item _ s
  · split
    · exact missSchedule_entries n item _ s
    · exact .of_eq rfl

/-- A close of an item with no open window. -/
theorem scheduleClose_entries {n : Unit8} {item : Nat} {s : State} (away : ∀ w, (s.chan n).window = some w → w.item ≠ item)
    (pos : Pos) (k : Nat) : EntriesOnly k s (scheduleClose n item pos s) := by
  rcases scheduleClose_cases n item pos s with ⟨w, hw, own, -⟩ | ⟨-, eq⟩
  · exact absurd own (away w hw)
  · rw [eq]
    split <;> exact .of_eq rfl

/-- A shot scheduled leaves its channel's window. -/
theorem scheduleShot_window (n : Unit8) (item : Nat) (pos : Pos) (kind : ShotKind) (s : State) :
    ((scheduleShot n item pos kind s).chan n).window = (s.chan n).window := by
  rw [scheduleShot_eq]
  split
  · rw [missSchedule_chan, if_pos rfl]
  · split
    · rw [missSchedule_chan, if_pos rfl]
    · rw [chan_setChan, if_pos rfl]

/-- The window of a channel is no matter to a new item: its end is not known, or the window is another item's. -/
def Apart (it : Item) (c : Channel) : Prop := it.endPos = none ∨ ∀ w, c.window = some w → w.item ≠ it.number

theorem enterChannel_entries {it : Item} {s : State} {ch : Unit8} (apart : Apart it (s.chan ch)) :
    EntriesOnly it.number s (enterChannel it s ch) := by
  have pending := pendingAt_entries it.number ch s
  cases part : takesPart (s.chan ch) with
  | false =>
    rw [enterChannel_out part]
    exact .of_eq rfl
  | true =>
    rw [enterChannel_in part]
    split
    · exact pending.trans (scheduleShot_entries _ _ _ _ _)
    · split
      · exact pending.trans (scheduleShot_entries _ _ _ _ _)
      · rename_i e he
        refine (pending.trans (scheduleShot_entries _ _ _ _ _)).trans (scheduleClose_entries (fun w hw => ?_) _ _)
        rw [scheduleShot_window] at hw
        exact apart.resolve_left (by rw [he]; exact Option.some_ne_none e) w hw

theorem appendItem_entries {it : Item} {s : State} (apart : ∀ ch, Apart it (s.chan ch)) :
    EntriesOnly it.number (appended it s) (appendItem it s) := by
  rw [appendItem_eq]
  refine foldl_own (enterChannel_unit_other it) (s := appended it s) (P := EntriesOnly it.number (appended it s)) units_nodup
    (fun u ch _ same hu => hu.trans (enterChannel_entries ?_)) (.of_eq rfl)
  rw [chan_of_unit same]
  exact apart ch

/-- A new item's number is free: it is appended with entries and flags alone changed, and the others stay as they are. -/
theorem appendItem_items {it : Item} {s : State} (free : ∀ i ∈ s.itab.items, i.number ≠ it.number)
    (apart : ∀ ch, Apart it (s.chan ch)) : ∃ it', findItem (appendItem it s) it.number = some it' ∧
      it' = { it with shots := it'.shots, flags := it'.flags } ∧ (appendItem it s).itab.items = s.itab.items ++ [it'] := by
  obtain ⟨f, hf, items⟩ := appendItem_entries apart
  have others : s.itab.items.map (fun i => if i.number = it.number then f i else i) = s.itab.items :=
    (List.map_congr_left fun i hi => if_neg (free i hi)).trans (List.map_id' _)
  have all : (appendItem it s).itab.items = s.itab.items ++ [f it] := by
    rw [items]
    change (s.itab.items ++ [it]).map _ = _
    rw [List.map_append, others, List.map_singleton, if_pos rfl]
  have number : (f it).number = it.number := by rw [hf it]
  refine ⟨f it, ?_, hf it, all⟩
  rw [findItem, all, List.find?_append, show s.itab.items.find? _ = none from findItem_none.2 free]
  simp [number]

/-! ## The end of an item -/

theorem findItem_of_mem {s : State} (distinct : (s.itab.items.map (·.number)).Nodup) {it : Item} (h : it ∈ s.itab.items) :
    findItem s it.number = some it := by
  unfold findItem
  generalize s.itab.items = l at distinct h
  induction l with
  | nil => cases h
  | cons x l ih =>
    rw [List.map_cons, List.nodup_cons] at distinct
    rcases List.mem_cons.1 h with rfl | h
    · simp
    · have other : x.number ≠ it.number := fun e => distinct.1 (e ▸ List.mem_map_of_mem h)
      rw [List.find?_cons_of_neg (by simpa using other)]
      exact ih distinct.2 h

theorem askClose_unit_other (n : Nat) (e : Pos) (s : State) (ch m : Unit8) (h : m ≠ ch) :
    (askClose n e s ch).unit m = s.unit m := by
  unfold askClose
  split
  · rfl
  · split
    · exact scheduleClose_unit_other _ _ _ h
    · rfl

theorem askClose_items (n : Nat) (e : Pos) (s : State) (ch : Unit8) : ItemsKept s (askClose n e s ch) := by
  unfold askClose
  split
  · exact .of_eq rfl
  · split
    · exact scheduleClose_items _ _ _ _
    · exact .of_eq rfl

/-- The item as its end is written (R37, R38). -/
def Item.ended (e : Pos) (long : Bool) (it : Item) : Item := { it with
  endPos := some e, state := .tracked, flags := if long then { it.flags with long := true } else it.flags }

theorem endItem_eq (n : Nat) (e : Pos) (long : Bool) (s : State) : endItem n e long s =
    completeIfSettled n (units.foldl (askClose n e) (modItem n (Item.ended e long) s)) := rfl

theorem ended_triggers (n : Nat) (e : Pos) (long : Bool) (s : State) : TriggersKept s (modItem n (Item.ended e long) s) := by
  refine modItem_triggers n (fun i => ?_) s
  exact ⟨rfl, rfl, nofun⟩

/-- The closes asked for leave items to reports. -/
theorem askCloses_items (n : Nat) (e : Pos) (s : State) : ItemsKept s (units.foldl (askClose n e) s) :=
  foldl_rel (R := ItemsKept) (fun _ => .of_eq rfl) .trans units (fun ch _ s => askClose_items n e s ch) s

theorem endItem_rise (n : Nat) (e : Pos) (long : Bool) {s : State} (rise : StartsRise s.itab) :
    StartsRise (endItem n e long s).itab := by
  have closes := (askCloses_items n e (modItem n (Item.ended e long) s)).trans (completeIfSettled_kept n _).toItemsKept
  rw [endItem_eq]
  rw [startsRise_iff, closes.geometry, Itab.starts,
    map_eq_of_forall₂ (f := (·.start)) SameRow.start (forall₂_trans (R := SameRow) (fun _ _ _ => SameRow.trans)
      (ended_triggers n e long s).rows closes.rows)]
  exact (startsRise_iff _).1 rise

/-- The end of the ENTERING item: its closes are the first of it in their queues. -/
theorem endItem_ok {n : Nat} {it : Item} {s : State} (ok : TriggersOk s) (live : findItem s n = some it)
    (entering : it.state = .entering) (e : Pos) (long : Bool) : TriggersOk (endItem n e long s) := by
  have kept := ended_triggers n e long s
  have found : ∃ i, findItem (modItem n (Item.ended e long) s) n = some i ∧ i.state ≠ .entering := by
    have number : it.number = n := by simpa using List.find?_some live
    have ended : ∀ l : List Item, l.find? (fun i => i.number == n) = some it →
        (l.map fun i => if i.number = n then i.ended e long else i).find? (fun i => i.number == n) =
          some (it.ended e long) := by
      intro l
      rw [List.find?_map]
      intro h
      have same : ((fun i : Item => i.number == n) ∘ fun i => if i.number = n then i.ended e long else i) =
          fun i => i.number == n := funext fun i => by
        by_cases own : i.number = n <;> simp [own, Item.ended]
      rw [same, h, Option.map_some, if_pos number]
    exact ⟨_, ended _ live, nofun⟩
  rw [endItem_eq]
  refine (completeIfSettled_kept n _).safe.ok (foldl_own (askClose_unit_other n e)
    (P := fun u => TriggersOk u ∧ ∃ i, findItem u n = some i ∧ i.state ≠ .entering) units_nodup
    (fun u ch _ same hu => ?_) ⟨kept.ok ok, found⟩).1
  obtain ⟨oku, i, found, ended⟩ := hu
  obtain ⟨j, found', reported⟩ := (askClose_items n e u ch).find found
  refine ⟨?_, j, found', fun x => ended (reported.row.entering x)⟩
  unfold askClose
  split
  · exact oku
  · split
    · refine scheduleClose_ok oku _ found ended fun x hx item close => ?_
      rw [chan_of_unit same] at hx
      obtain ⟨a, ha, closed⟩ := (ok.2.2 ch).2.2 x hx
      rw [item, live, Option.some.injEq] at ha
      exact closed close (ha ▸ entering)
    · exact oku

/-! ## Items that leave the table -/

/-- All but the newest of a table that items leave are among all but the newest before. -/
theorem dropLast_filter_sublist {α : Type} (p : α → Bool) (l : List α) :
    (l.filter p).dropLast.Sublist l.dropLast := by
  rcases List.eq_nil_or_concat' l with rfl | ⟨l, x, rfl⟩
  · exact List.Sublist.refl _
  · rw [List.dropLast_concat, List.filter_append]
    by_cases h : p x
    · rw [List.filter_singleton, h]
      exact (List.dropLast_concat ▸ List.filter_sublist : ((l.filter p ++ [x]).dropLast).Sublist l)
    · rw [List.filter_singleton, Bool.eq_false_iff.2 h]
      simpa using (List.dropLast_sublist _).trans List.filter_sublist

/-- An item that no queue names leaves the table. -/
theorem removeItem_safe {n : Nat} {s : State} (away : ∀ m, ∀ e ∈ (s.chan m).queue, e.item ≠ n) :
    TriggersSafe s (removeItem n s) := by
  refine ⟨fun ok => ?_, fun rise => ?_⟩
  · obtain ⟨numbers, newest, queues⟩ := ok
    refine ⟨numbers.sublist (List.filter_sublist.map _), fun i hi => newest i ((dropLast_filter_sublist _ _).subset hi),
      fun m => ?_⟩
    obtain ⟨room, opens, live⟩ := queues m
    refine ⟨room, opens, fun e he => ?_⟩
    obtain ⟨a, ha, closed⟩ := live e he
    refine ⟨a, ?_, closed⟩
    have other : e.item ≠ n := away m e he
    unfold findItem at ha ⊢
    change (s.itab.items.filter _).find? _ = _
    rw [List.find?_filter, ← ha]
    congr 1
    funext i
    by_cases own : i.number = e.item <;> simp [own, other]
  · rw [startsRise_iff] at rise ⊢
    exact rise.sublist (List.filter_sublist.map _)

/-- After an item has left the queues none of them names it. -/
theorem leaveQueues_away (item : Nat) (s : State) (m : Unit8) : ∀ e ∈ ((leaveQueues item s).chan m).queue, e.item ≠ item := by
  intro e he
  rw [(leaveQueues_chan item s m).1, List.mem_filter] at he
  exact of_decide_eq_true he.2

theorem leaveTable_safe (item : Nat) (s : State) : TriggersSafe s (removeItem item (leaveQueues item s)) :=
  (leaveQueues_kept item s).safe.trans (removeItem_safe (leaveQueues_away item s))

theorem applyPolicies_bench (handles : List Handle) (s : State) : (applyPolicies handles s).bench = s.bench :=
  forEachFree_rel (R := fun s t => t.bench = s.bench) (fun _ => rfl) (fun h k => k.trans h) (fun _ _ => rfl)
    (fun h _ s => applyAutoFull_bench false h s) s

theorem ejectRequest_safe (s : State) : TriggersSafe s (ejectRequest s) :=
  TriggersKept.safe (.of_items rfl rfl rfl fun _ => rfl)

theorem retireItem_safe (it : Item) (s : State) : TriggersSafe s (retireItem it s) := by
  unfold retireItem
  generalize finalVerdict s.itab.geometry it = verdict
  obtain ⟨v, src⟩ := verdict
  dsimp -zeta only
  extract_lets s2 s3 s4 named s5 s6 s7 s8
  have h3 : TriggersSafe s s3 := leaveTable_safe it.number s
  clear_value s3
  have h4 : TriggersSafe s s4 := by
    change TriggersSafe s (if _ then _ else _)
    split
    · exact h3.trans (ejectRequest_safe s3)
    · exact h3
  clear_value s4
  have h6 : s6.bench = s4.bench := applyPolicies_bench named s5
  clear_value s6
  have h7 : s7.bench = s4.bench := (queueMessage_bench _ _ s6).trans h6
  clear_value s7
  have h8 : s8.bench = s4.bench := by
    change (if _ then _ else _ : State).bench = _
    split
    · exact (setOffice_bench _ s7).trans h7
    · exact h7
  clear_value s8
  exact (h4.trans (Kept.of_bench h8).safe).trans (TriggersKept.safe (.of_items rfl rfl rfl fun _ => rfl))

theorem withdraw_safe (it : Item) (s : State) : TriggersSafe s (withdraw it s) := by
  unfold withdraw
  extract_lets s1 s2 s3
  have h1 : TriggersSafe s s1 := leaveTable_safe it.number s
  clear_value s1
  have h3 : s3.bench = s1.bench := queueMessage_bench _ _ s2
  clear_value s3
  exact (h1.trans (Kept.of_bench h3).safe).trans (TriggersKept.safe (.of_items rfl rfl rfl fun _ => rfl))

/-! ## Edges and declarations -/

theorem createFromEdge_step {p : Pos} {s : State} (still : ∀ i, newest s.itab = some i → i.state ≠ .entering)
    (ahead : ∀ i, newest s.itab = some i → aheadBy s.itab.geometry.minGap p i.start = true) :
    TriggersStep s (createFromEdge p s) := by
  have joined : TriggersStep s (appendItem (sensorItem s.itab p) s) :=
    appendItem_step (it := sensorItem s.itab p) rfl still (fun h => absurd rfl h) ahead
  unfold createFromEdge
  extract_lets it s1
  split
  · exact joined
  · rename_i it1 found
    refine ⟨fun ok free => ?_, fun rise half => ?_⟩
    · have ok1 : TriggersOk s1 := joined.ok ok free
      obtain ⟨it', found', entries, -⟩ := appendItem_items (it := it) (s := s) free fun _ => Or.inl rfl
      have same : it1 = it' := Option.some.inj (found.symm.trans found')
      have entering : it1.state = .entering := by rw [same, entries]; rfl
      have number : it1.number = it.number := by rw [same, entries]
      split
      · exact (retireItem_safe it1 s1).ok ok1
      · split
        · exact endItem_ok ok1 (number ▸ found) entering _ _
        · exact ok1
    · have rise1 : StartsRise s1.itab := joined.rise rise half
      split
      · exact (retireItem_safe it1 s1).rise rise1
      · split
        · exact endItem_rise _ _ _ rise1
        · exact rise1

end Sys2Proof.Machine
end

section
/-! PROOFS. What keeps the item numbers, the starts, ENTERING and the shot queues (O58): the edges of the capture pins, and count
events. -/

namespace Sys2Proof.Machine

/-! ## Edges of ITEM -/

/-- An item is the newest, and ENTERING: it is live. -/
theorem endNewest_safe {s : State} {it : Item} (found : newest s.itab = some it) (entering : it.state = .entering) (e : Pos)
    (long : Bool) : TriggersSafe s (endItem it.number e long s) :=
  ⟨fun ok => endItem_ok ok (findItem_of_mem ok.1 (newest_mem found)) entering e long, endItem_rise _ _ _⟩

/-- A change of ITAB in none of its items, its next number and its geometry. -/
theorem setItab_triggers {s : State} {t : Itab} (hi : t.items = s.itab.items) (hn : t.nextNumber = s.itab.nextNumber)
    (hg : t.geometry = s.itab.geometry) : TriggersKept s (s.setItab t) := .of_items hi hn hg fun _ => rfl

theorem setItab_safe {s : State} {t : Itab} (hi : t.items = s.itab.items) (hn : t.nextNumber = s.itab.nextNumber)
    (hg : t.geometry = s.itab.geometry) : TriggersSafe s (s.setItab t) := (setItab_triggers hi hn hg).safe

/-- The same, with what comes after. -/
theorem TriggersSafe.after_setItab {s u : State} {t : Itab} (k : TriggersSafe (s.setItab t) u) (hi : t.items = s.itab.items)
    (hn : t.nextNumber = s.itab.nextNumber) (hg : t.geometry = s.itab.geometry) : TriggersSafe s u :=
  (setItab_safe hi hn hg).trans k

theorem trailingEdge_safe (q : Pos) (s : State) : TriggersSafe s (trailingEdge q s) := by
  unfold trailingEdge
  split
  · exact setItab_safe rfl rfl rfl
  · split
    · exact .refl s
    · rename_i it found
      split
      · rename_i entering
        exact endNewest_safe found entering _ _
      · exact .refl s

theorem offerBlind_safe (p : Pos) (s : State) : TriggersSafe s (offerBlind p s) := by
  unfold offerBlind
  split
  · exact .refl s
  · split
    · exact setItab_safe rfl rfl rfl
    · exact (Kept.of_bench (setBoth_bench .blindLost _)).safe.after_setItab rfl rfl rfl

/-- An edge at `p` that the table does not refuse: the newest item is not ENTERING, and `p` is ahead of its start. -/
theorem ahead_of_refusesEdge {t : Itab} {p : Pos} (h : refusesEdge t p = false) {i : Item} (hi : newest t = some i) :
    i.state ≠ .entering ∧ aheadBy t.geometry.minGap p i.start = true := by
  unfold refusesEdge at h
  rw [hi] at h
  simp only [Bool.or_eq_false_iff, decide_eq_false_iff_not, Bool.not_eq_false', and_assoc] at h
  exact ⟨h.1, h.2.1⟩

theorem leadingEdge_step (p : Pos) (s : State) : TriggersStep s (leadingEdge p s) := by
  unfold leadingEdge
  dsimp only
  split
  · exact TriggersSafe.step (setItab_safe rfl rfl rfl)
  · rename_i accepted
    replace accepted := Bool.eq_false_iff.2 accepted
    split
    · have first := setItab_triggers (s := s) (t := { s.itab with
        suppression := true, overflowEdges := s.itab.overflowEdges + 1 }) rfl rfl rfl
      exact ((first.safe.trans (Kept.of_bench (setBoth_bench _ _)).safe).trans (offerBlind_safe _ _)).step
    · have first := setItab_triggers (s := s) (t := { s.itab with suppression := false }) rfl rfl rfl
      exact first.trans_step (createFromEdge_step (fun i hi => (ahead_of_refusesEdge accepted hi).1)
        fun i hi => (ahead_of_refusesEdge accepted hi).2)

/-! ## Capture -/

theorem setLine_kept (n : Notice) (s : State) : Kept s (setLine n s) := .of_bench rfl

theorem modInput_kept (i : CaptureInput) (f : InputUnit → InputUnit) (s : State) : Kept s (modInput i f s) := .of_bench rfl

theorem offerCapture_kept (r : CaptureRecord) (s : State) : Kept s (offerCapture r s) := by
  unfold offerCapture
  split <;> exact .of_bench rfl

theorem auxEdge_kept (a : AuxInput) (role : Role) (e : Edge) (pos : Pos) (stamp : Stamp) (s : State) :
    Kept s (auxEdge a role e pos stamp s) := by
  cases role with
  | capture => exact offerCapture_kept _ s
  | untilEdge => exact untilEdge_kept _ _ _ s
  | both => exact (offerCapture_kept _ s).trans (untilEdge_kept _ _ _ _)

theorem endSwitch_bench (o : SwitchOutcome) (s : State) : (endSwitch o s).bench = s.bench := by
  rw [endSwitch_rest]
  rfl

theorem stopAsserted_kept (s : State) : Kept s (stopAsserted s) := by
  have ended : Kept s (endSwitch .cancelledByStop (setSpeedTo 0 s)) := .of_bench (endSwitch_bench _ _)
  exact ended.trans ((Kept.of_bench (setBoth_bench _ _)).trans (stopHalt_kept _))

theorem classify_step (i : CaptureInput) (l : Level) (pos : Pos) (stamp : Stamp) (s : State) :
    TriggersStep s (classify i l pos stamp s) := by
  unfold classify
  dsimp only
  split
  · cases i with
    | item =>
      dsimp only
      split
      · exact leadingEdge_step pos s
      · exact (trailingEdge_safe pos s).step
    | stop =>
      dsimp only
      split
      · exact (stopAsserted_kept s).safe.step
      · exact (TriggersSafe.refl s).step
    | aux1 => exact (auxEdge_kept _ _ _ _ _ s).safe.step
    | aux2 => exact (auxEdge_kept _ _ _ _ _ s).safe.step
  · exact (TriggersSafe.refl s).step

theorem acceptEdge_step (i : CaptureInput) (l : Level) (pos : Pos) (stamp : Stamp) (s : State) :
    TriggersStep s (acceptEdge i l pos stamp s) := (modInput_kept i _ s).triggers.trans_step (classify_step i l pos stamp _)

theorem elapse_bench (n : Nat) (s : State) : (elapse n s).bench = s.bench := by
  unfold elapse
  split <;> rfl

theorem reachTime_bench (t : Stamp) (s : State) : (reachTime t s).bench = s.bench := by
  unfold reachTime
  split
  · rfl
  · exact elapse_bench _ s

theorem reachTime_kept (t : Stamp) (s : State) : Kept s (reachTime t s) := .of_bench (reachTime_bench t s)

theorem takePinChange_step (i : CaptureInput) (l : Level) (s : State) : TriggersStep s (takePinChange i l s) := by
  unfold takePinChange
  extract_lets s1 u
  have h1 : Kept s s1 := .of_bench rfl
  split
  · exact h1.safe.step
  · split
    · exact (h1.trans (modInput_kept i _ s1)).safe.step
    · split
      · exact h1.safe.step
      · split
        · exact h1.triggers.trans_step (acceptEdge_step i l _ _ s1)
        · exact (h1.trans (modInput_kept i _ s1)).safe.step

theorem takeFilterExpiry_step (i : CaptureInput) (s : State) : TriggersStep s (takeFilterExpiry i s) := by
  unfold takeFilterExpiry
  split
  · exact (TriggersSafe.refl s).step
  · split
    · exact (TriggersSafe.refl s).step
    · exact (reachTime_kept _ s).triggers.trans_step (acceptEdge_step _ _ _ _ _)

/-! ## Count events -/

theorem reachForcedEnd_safe (p : Pos) (s : State) : TriggersSafe s (reachForcedEnd p s) := by
  unfold reachForcedEnd
  split
  · exact .refl s
  · rename_i it found
    split
    · rename_i due
      exact endNewest_safe found (of_decide_eq_true (Bool.and_eq_true_iff.1 due).1) _ _
    · exact .refl s

theorem blindRequests_safe (n : Nat) (s : State) : TriggersSafe s (blindRequests n s) := by
  induction n generalizing s with
  | zero => exact .refl s
  | succ n ih => exact ((ejectRequest_safe _).trans (ih _)).after_setItab rfl rfl rfl

theorem reachBlind_safe (p : Pos) (s : State) : TriggersSafe s (reachBlind p s) := by
  rw [reachBlind_eq]
  exact (setItab_triggers (t := { s.itab with blind := s.itab.blind.filter (· ≠ p) }) rfl rfl rfl).safe.trans
    (blindRequests_safe _ _)

theorem reachEject_safe (p : Pos) (s : State) : TriggersSafe s (reachEject p s) := by
  unfold reachEject
  split
  · exact .refl s
  · split
    · exact retireItem_safe _ s
    · exact .refl s

theorem doWork_safe (p : Pos) (w : CountWork) (s : State) : TriggersSafe s (doWork p w s) := by
  cases w with
  | forcedEnd => exact reachForcedEnd_safe p s
  | blind => exact reachBlind_safe p s
  | eject => exact reachEject_safe p s
  | channel n => exact (reachChannel_kept n p s).safe

theorem setPosu_kept (p : Posu) (s : State) : Kept s (s.setPosu p) := .of_bench rfl

theorem countEvent_safe (forward : Bool) (s : State) : TriggersSafe s (countEvent forward s) := by
  cases forward with
  | false =>
    rw [countEvent_false]
    exact (setPosu_kept _ s).safe.trans (setItab_safe rfl rfl rfl)
  | true =>
    rw [countEvent_true]
    exact (setPosu_kept _ s).safe.trans (forEachFree_rel (R := TriggersSafe) .refl .trans
      (fun s k => (Kept.of_bench rfl : Kept s (s.choseOrder k)).safe) (fun w _ s => doWork_safe _ w s) (countedOn s))

/-! ## Sources -/

theorem completeSwitch_safe (target : Source) (forward : Bool) (s : State) :
    TriggersSafe s (completeSwitch target forward s) :=
  ((Kept.of_bench (endSwitch_bench .done s)).trans (setPosu_kept _ _)).safe.trans (countEvent_safe forward _)

theorem qualifyCount_safe (p : PendingSwitch) (forward : Bool) (s : State) : TriggersSafe s (qualifyCount p forward s) := by
  unfold qualifyCount
  split
  · exact completeSwitch_safe _ _ s
  · exact (setPosu_kept _ s).safe

theorem sourceCount_safe (src : Source) (forward : Bool) (s : State) : TriggersSafe s (sourceCount src forward s) := by
  unfold sourceCount
  split
  · exact (setPosu_kept _ s).safe.trans (countEvent_safe forward _)
  · split
    · exact .refl s
    · split
      · exact qualifyCount_safe _ _ s
      · exact .refl s

theorem failover_kept (cause : FailCause) (m : Monitor) (s : State) : Kept s (failover cause m s) := by
  refine .of_bench ?_
  rw [failover_rest]
  rfl

theorem quadFault_kept (s : State) : Kept s (quadFault s) := by
  unfold quadFault
  split
  · split
    · exact .refl s
    · dsimp only
      split
      · exact failover_kept _ _ s
      · exact setPosu_kept _ s
  · split
    · exact .refl s
    · split
      · exact setPosu_kept _ s
      · exact .refl s

theorem takeQuadEdge_safe (a b : Bool) (s : State) : TriggersSafe s (takeQuadEdge a b s) := by
  have h1 : Kept s { s with pins := { s.pins with encA := a, encB := b } } := .of_bench rfl
  unfold takeQuadEdge
  dsimp only
  split
  · exact h1.safe
  · split
    · exact h1.safe
    · exact h1.safe.trans (sourceCount_safe _ _ _)
    · exact (h1.trans (quadFault_kept _)).safe

theorem takeStepEdge_safe (dirHigh : Bool) (s : State) : TriggersSafe s (takeStepEdge dirHigh s) := by
  unfold takeStepEdge
  split
  · exact .refl s
  · exact sourceCount_safe _ _ s

theorem takeGeneratorCount_safe (s : State) : TriggersSafe s (takeGeneratorCount s) := by
  unfold takeGeneratorCount
  split
  · exact .refl s
  · split
    · exact .refl s
    · extract_lets s1
      have h1 : Kept s s1 := by
        change Kept s (if _ then _ else _)
        split
        · exact .refl s
        · exact .of_bench (elapse_bench _ s)
      exact (h1.trans (setPosu_kept _ s1)).safe.trans (sourceCount_safe _ _ _)

theorem takeSwitchDeadline_kept (s : State) : Kept s (takeSwitchDeadline s) := by
  unfold takeSwitchDeadline
  split
  · exact .refl s
  · split
    · exact .refl s
    · exact (reachTime_kept _ s).trans (.of_bench (endSwitch_bench _ _))

theorem takeSilenceExpiry_kept (s : State) : Kept s (takeSilenceExpiry s) := by
  unfold takeSilenceExpiry
  split
  · exact .refl s
  · split
    · exact .refl s
    · exact (reachTime_kept _ s).trans (failover_kept _ _ _)

theorem takeIntervalEnd_kept (s : State) : Kept s (takeIntervalEnd s) := by
  unfold takeIntervalEnd
  split
  · exact .refl s
  · exact (reachTime_kept _ s).trans (setPosu_kept _ _)

end Sys2Proof.Machine
end

section
/-! PROOFS. What keeps the item table and the shot queues (O58): the link, the forwarder, pulses and cameras. -/

namespace Sys2Proof.Machine

/-! ## The link and the forwarder -/

theorem modLnk_kept (f : Lnk → Lnk) (s : State) : Kept s (modLnk f s) := .of_bench rfl
theorem countLnk_kept (f : LinkCounters → LinkCounters) (s : State) : Kept s (countLnk f s) := .of_bench rfl
theorem modFwd_kept (f : Fwd → Fwd) (s : State) : Kept s (modFwd f s) := .of_bench rfl
theorem modRecord_kept (h : Handle) (f : FrameRecord → FrameRecord) (s : State) : Kept s (modRecord h f s) :=
  .of_bench (modRecord_bench h f s)
theorem startFill_kept (s : State) : Kept s (startFill s) := .of_bench rfl
theorem startHold_kept (s : State) : Kept s (startHold s) := .of_bench rfl
theorem dropHunting_kept (s : State) : Kept s (dropHunting s) := .of_bench rfl

theorem alignIfLit_kept (s : State) : Kept s (alignIfLit s) := by
  unfold alignIfLit
  split <;> exact .of_bench rfl

theorem forwardLoss_kept (s : State) : Kept s (forwardLoss s) := by
  have lane (p : Part) (s : State) : Kept s (returnTransfer p s) := by
    have h := returnTransfer_kept p s
    simp only [State.lossKept, Prod.mk.injEq] at h
    obtain ⟨-, -, -, -, -, -, itab, trgu, -⟩ := h
    exact .of_bench (Prod.ext itab trgu)
  unfold forwardLoss
  exact (modFwd_kept _ s).trans ((lane _ _).trans ((lane _ _).trans (modFwd_kept _ _)))

theorem leaveUp_kept (cause : DownCause) (cutting : Bool) (s : State) : Kept s (leaveUp cause cutting s) := by
  unfold leaveUp
  extract_lets s1 s2
  have h1 : Kept s s1 := .of_bench rfl
  have h2 : Kept s s2 := h1.trans ((forwardLoss_kept s1).trans (setLine_kept _ _))
  clear_value s2
  split
  · exact h2.trans ((startHold_kept s2).trans (startFill_kept _))
  · exact h2.trans ((alignIfLit_kept s2).trans (startFill_kept _))

theorem enterUp_kept (s : State) : Kept s (enterUp s) :=
  (modLnk_kept _ s).trans ((setLine_kept _ _).trans (.of_bench (queueMessage_bench _ _ _)))

theorem countCorrect_kept (s : State) : Kept s (countCorrect s) := by
  unfold countCorrect
  split
  · exact .refl s
  · dsimp only
    split
    · exact (modLnk_kept _ s).trans (enterUp_kept _)
    · exact modLnk_kept _ s
  · exact modLnk_kept _ s

theorem correctDelimiter_kept (d : Delimiter) (s : State) : Kept s (correctDelimiter d s) := by
  have h : Kept s (countCorrect (modLnk (fun l => { l with framer := .framed }) s)) :=
    (modLnk_kept _ s).trans (countCorrect_kept _)
  cases d with
  | idle => exact h.trans (.of_bench rfl)
  | control => exact h.trans (.of_bench rfl)
  | image => exact h.trans ((countLnk_kept _ _).trans (dropHunting_kept _))

theorem delimiterError_kept (s : State) : Kept s (delimiterError s) := by
  unfold delimiterError
  extract_lets s1 s2
  have h1 : Kept s s1 := .of_bench rfl
  have h2 : Kept s s2 := .of_bench rfl
  split
  · split
    · exact h2.trans (leaveUp_kept _ _ _)
    · exact h2
  · exact h1

theorem takeDelimiter_kept (d : Option Delimiter) (s : State) : Kept s (takeDelimiter d s) := by
  unfold takeDelimiter
  split
  · cases d with
    | none => exact delimiterError_kept s
    | some d => exact correctDelimiter_kept d s
  · exact .refl s

theorem takeHuntDelimiter_kept (d : Delimiter) (s : State) : Kept s (takeHuntDelimiter d s) := by
  unfold takeHuntDelimiter
  split
  · exact correctDelimiter_kept d s
  · exact .refl s

theorem takeHuntSpan_kept (s : State) : Kept s (takeHuntSpan s) := by
  unfold takeHuntSpan
  split
  · exact delimiterError_kept s
  · exact .refl s

theorem takeControlHeader_kept (length : Byte) (s : State) : Kept s (takeControlHeader length s) := by
  unfold takeControlHeader
  split
  · split <;> exact .of_bench rfl
  · exact .refl s

theorem takeLightGained_kept (s : State) : Kept s (takeLightGained s) := by
  unfold takeLightGained
  dsimp only
  split
  · exact .of_bench rfl
  · exact (alignIfLit_kept _).before (.of_bench rfl)

theorem takeLightLost_kept (s : State) : Kept s (takeLightLost s) := by
  unfold takeLightLost
  dsimp only
  split
  · exact .of_bench rfl
  · split
    · exact .of_bench rfl
    · exact .of_bench rfl
    · exact (leaveUp_kept _ _ _).before (.of_bench rfl)

theorem retrainNow_kept (s : State) : Kept s (retrainNow s) := by
  unfold retrainNow
  split
  · exact leaveUp_kept _ _ s
  · exact .of_bench rfl
  · exact .of_bench rfl

theorem takeHoldEnd_kept (s : State) : Kept s (takeHoldEnd s) := by
  unfold takeHoldEnd
  split
  · exact .refl s
  · split
    · exact .refl s
    · exact (reachTime_kept _ s).trans ((modLnk_kept _ _).trans ((alignIfLit_kept _).trans (startFill_kept _)))

theorem beginTransfer_kept (p : Part) (s : State) : Kept s (beginTransfer p s).2 := by
  unfold beginTransfer
  split
  · exact .refl s
  · split
    · exact .refl s
    · exact (modFwd_kept _ s).trans (modRecord_kept _ _ _)

theorem imageStep_kept (s : State) : Kept s (imageStep s).2 := by
  unfold imageStep
  split
  · exact .refl s
  · split
    · exact beginTransfer_kept _ s
    · exact .of_bench rfl

theorem controlStep_kept (e : ControlEntry) (rest : List ControlEntry) (s : State) : Kept s (controlStep e rest s).2 := by
  unfold controlStep
  split <;> exact .of_bench rfl

theorem arbiter_kept (s : State) : Kept s (arbiter s).2 := by
  unfold arbiter
  split
  · exact controlStep_kept _ _ s
  · split
    · exact imageStep_kept s
    · exact .refl s

theorem nextFrame_kept (s : State) : Kept s (nextFrame s) := by
  have h := arbiter_kept s
  unfold nextFrame
  split
  · split <;> rename_i e <;> rw [e] at h <;> exact h.trans (modLnk_kept _ _)
  · exact modLnk_kept _ s

theorem beginRetrain_kept (s : State) : Kept s (beginRetrain s) := by
  unfold beginRetrain
  split
  · exact leaveUp_kept _ _ s
  · exact nextFrame_kept s

theorem segmentReport_kept (g : Segment) (s : State) : Kept s (segmentReport g s) := by
  unfold segmentReport
  extract_lets s1 s2
  have h2 : Kept s s2 := .of_bench rfl
  split
  · exact .of_bench rfl
  · split
    · split
      · exact h2
      · exact h2.trans ((modFwd_kept _ _).trans (modRecord_kept _ _ _))
    · exact .of_bench rfl

theorem frameEnded_kept (s : State) : Kept s (frameEnded s) := by
  unfold frameEnded
  split
  · exact .refl s
  · exact .refl s
  · exact (modLnk_kept _ s).trans (nextFrame_kept _)
  · dsimp only
    split
    · exact (modLnk_kept _ s).trans (beginRetrain_kept _)
    · exact (modLnk_kept _ s).trans (nextFrame_kept _)
  · exact (modLnk_kept _ s).trans ((segmentReport_kept _ _).trans (nextFrame_kept _))

theorem takeFrameEnd_kept (s : State) : Kept s (takeFrameEnd s) := by
  unfold takeFrameEnd
  split
  · exact .refl s
  · extract_lets s1
    have h1 : Kept s s1 := by
      change Kept s (if _ then _ else _)
      split
      · exact .refl s
      · exact .of_bench (elapse_bench _ s)
    exact h1.trans ((modLnk_kept _ _).trans (frameEnded_kept _))

/-! ## Pulses -/

theorem takeEjectEnd_kept (s : State) : Kept s (takeEjectEnd s) := by
  unfold takeEjectEnd
  split
  · exact .refl s
  · split
    · exact .refl s
    · exact (reachTime_kept _ s).trans (.of_eq rfl fun _ => .refl _)

theorem takeTriggerEnd_kept (n : Unit8) (s : State) : Kept s (takeTriggerEnd n s) := by
  unfold takeTriggerEnd
  split
  · exact .refl s
  · split
    · exact .refl s
    · exact (reachTime_kept _ s).trans (modChan_kept (.of_eq rfl rfl))

theorem takeStrobeDelayEnd_kept (n : Unit8) (s : State) : Kept s (takeStrobeDelayEnd n s) := by
  unfold takeStrobeDelayEnd
  split
  · split
    · exact .refl s
    · exact (reachTime_kept _ s).trans (modChan_kept (.of_eq rfl rfl))
  · exact .refl s
  · exact .refl s

theorem takeStrobeEnd_kept (n : Unit8) (s : State) : Kept s (takeStrobeEnd n s) := by
  unfold takeStrobeEnd
  split
  · split
    · exact .refl s
    · exact (reachTime_kept _ s).trans (modChan_kept (.of_eq rfl rfl))
  · exact .refl s
  · exact .refl s

/-! ## Cameras -/

theorem settleAs_kept (n : Unit8) (st : PortState) (s : State) : Kept s (settleAs n st s) :=
  (modPort_kept n _ s).trans (settleChannel_kept n _)

theorem gapCheck_kept (n : Unit8) (counter : BitVec 16) (s : State) : Kept s (gapCheck n counter s) := modPort_kept n _ s
theorem unsolicited_kept (n : Unit8) (s : State) : Kept s (unsolicited n s) := modPort_kept n _ s
theorem stray_kept (n : Unit8) (s : State) : Kept s (stray n s) := countPort_kept n _ s
theorem discardLine_kept (n : Unit8) (s : State) : Kept s (discardLine n s) := countPort_kept n _ s
theorem unrequestedLine_kept (n : Unit8) (s : State) : Kept s (unrequestedLine n s) := countPort_kept n _ s
theorem clearOutstanding_kept (n : Unit8) (s : State) : Kept s (clearOutstanding n s) := by
  refine modChan_kept (.of_sublist (List.Sublist.refl _) (windowLoad_map_close _ fun w => ?_).le)
  exact Iff.rfl

theorem endAreaFrame_kept (n : Unit8) (noFe : Bool) (s : State) : Kept s (endAreaFrame n noFe s) := completeFrame_kept n _ s

theorem startFrame_kept (n : Unit8) (counter : BitVec 16) (s : State) : Kept s (startFrame n counter s) := by
  unfold startFrame
  split
  · exact .refl s
  · exact (modRecord_kept _ _ s).trans ((modPort_kept n _ _).trans (.of_bench (beginContext_bench _ _ _)))

theorem takeFs_kept (n : Unit8) (counter : BitVec 16) (s : State) : Kept s (takeFs n counter s) := by
  have gap := gapCheck_kept n counter s
  unfold takeFs
  split
  · exact .refl s
  · cases (s.port n).kind with
    | scan => exact .refl s
    | area =>
      cases (s.port n).state with
      | disabled => exact .refl s
      | unlocked => exact .refl s
      | armed => exact gap.trans (startFrame_kept _ _ _)
      | idle => exact gap.trans (unsolicited_kept _ _)
      | receiving => exact gap.trans ((endAreaFrame_kept _ _ _).trans (unsolicited_kept _ _))
      | draining => exact gap.trans (unsolicited_kept _ _)

theorem takeAreaLine_kept (n : Unit8) (samples : List Nat) (s : State) : Kept s (takeAreaLine n samples s) := by
  unfold takeAreaLine
  split
  · exact offerLine_kept _ _ s
  · split
    · exact .refl s
    · exact (modRecord_kept _ _ s).trans (discardLine_kept _ _)

theorem takeScanLine_kept (n : Unit8) (samples : List Nat) (s : State) : Kept s (takeScanLine n samples s) := by
  have line := (offerLine_kept n samples s).trans (clearOutstanding_kept n _)
  unfold takeScanLine
  split
  · dsimp only
    split
    · exact line.trans ((truncateFrame_kept _ _ _).trans (modPort_kept n _ _))
    · exact line
  · exact unrequestedLine_kept n s

theorem takeLn_kept (n : Unit8) (samples : List (BitVec 14)) (s : State) : Kept s (takeLn n samples s) := by
  unfold takeLn
  split
  · exact .refl s
  · dsimp only
    split
    · exact .refl s
    · exact .refl s
    · exact stray_kept n s
    · exact unrequestedLine_kept n s
    · exact stray_kept n s
    · exact takeAreaLine_kept _ _ s
    · exact takeScanLine_kept _ _ s
    · exact discardLine_kept n s

theorem takeFe_kept (n : Unit8) (s : State) : Kept s (takeFe n s) := by
  unfold takeFe
  split
  · exact .refl s
  · cases (s.port n).kind with
    | scan => exact .refl s
    | area =>
      cases (s.port n).state with
      | disabled => exact .refl s
      | unlocked => exact .refl s
      | idle => exact stray_kept n s
      | armed => exact stray_kept n s
      | receiving => exact (endAreaFrame_kept _ _ s).trans (settleAs_kept _ _ _)
      | draining => exact settleAs_kept _ _ s

theorem expireRecord_kept (n : Unit8) (h : Handle) (s : State) : Kept s (expireRecord n h s) := by
  unfold expireRecord
  split
  · exact .refl s
  · rename_i r _
    extract_lets s1 s2
    have h1 : Kept s s1 := by
      change Kept s (if _ then _ else _)
      split
      · exact report_kept _ _ _ s
      · exact .refl s
    have h2 : Kept s s2 := h1.trans (.of_bench (freeRecord_bench h s1))
    split
    · exact h2
    · exact h2.trans (.of_bench (setBoth_bench _ _))

theorem takeWindowExpiry_kept (n : Unit8) (s : State) : Kept s (takeWindowExpiry n s) := by
  unfold takeWindowExpiry
  split
  · exact .refl s
  · split
    · exact (reachTime_kept _ s).trans ((expireRecord_kept _ _ _).trans ((modPort_kept n _ _).trans (settleAs_kept _ _ _)))
    · exact .refl s

theorem setLock_kept (n : Unit8) (b : Bool) (s : State) : Kept s (setLock n b s) := .of_bench rfl

theorem takeLockGained_kept (n : Unit8) (s : State) : Kept s (takeLockGained n s) := by
  have lock := setLock_kept n true s
  unfold takeLockGained
  dsimp only
  split
  · exact lock
  · split
    · exact lock.trans ((modPort_kept n _ _).trans (settleAs_kept _ _ _))
    · exact lock

theorem loseLock_kept (n : Unit8) (s : State) : Kept s (loseLock n s) := by
  unfold loseLock
  extract_lets s1 s2
  have h1 : Kept s s1 := by
    change Kept s (if _ then _ else _)
    split
    · exact (truncateFrame_kept _ _ s).trans (clearOutstanding_kept _ _)
    · exact .refl s
  exact h1.trans ((modPort_kept n _ _).trans ((Kept.of_bench (setBoth_bench _ _)).trans (settleChannel_kept _ _)))

theorem takeLockLost_kept (n : Unit8) (s : State) : Kept s (takeLockLost n s) := by
  have lock := setLock_kept n false s
  unfold takeLockLost
  dsimp only
  split
  · exact lock
  · cases (s.port n).state with
    | disabled => exact lock
    | unlocked => exact lock
    | idle => exact lock.trans (loseLock_kept n _)
    | armed => exact lock.trans (loseLock_kept n _)
    | receiving => exact lock.trans (loseLock_kept n _)
    | draining => exact lock.trans (loseLock_kept n _)

end Sys2Proof.Machine
end

section
/-! PROOFS. Requests, the two ways in, resets, and with them every step: item numbers, starts, ENTERING and the shot queues (O58). -/

namespace Sys2Proof.Machine

/-! ## Requests -/

/-- A block's rule keeps what `TriggersOk` says, and rising starts, whoever asks and with whatever arguments. -/
def KeepsTriggers (run : Handler) : Prop := ∀ m args s, TriggersStep s (run m args s).1

theorem TriggersStep.refl (s : State) : TriggersStep s s := (TriggersSafe.refl s).step

theorem TriggersStep.of_kept {s t : State} (h : Kept s t) : TriggersStep s t := h.safe.step

theorem TriggersStep.of_bench {s t : State} (h : t.bench = s.bench) : TriggersStep s t := .of_kept (.of_bench h)

/-- Each side of a decision is safe. -/
theorem triggersStep_ite {c : Prop} [Decidable c] {s : State} {x y : State × Answer} (hx : TriggersStep s x.1)
    (hy : TriggersStep s y.1) : TriggersStep s (if c then x else y).1 := by
  split
  · exact hx
  · exact hy

/-- A channel changed in neither its queue nor its window, with an answer. -/
theorem modChan_answered {n : Unit8} {f : Channel → Channel} (hq : ∀ c, (f c).queue = c.queue)
    (hw : ∀ c, (f c).window = c.window) (s : State) (a : Answer) : TriggersStep s (modChan n f s, a).1 :=
  .of_kept (modChan_kept (.of_eq (hq _) (hw _)))

/-- An item changed in neither its number nor its start nor its state, with an answer. -/
theorem modItem_answered {n : Nat} {f : Item → Item} (h : ∀ i, (f i).number = i.number ∧ (f i).start = i.start ∧
    (f i).state = i.state) (s : State) (a : Answer) : TriggersStep s (modItem n f s, a).1 :=
  (modItem_triggers n (fun i => ⟨(h i).1, (h i).2.1, fun e => (h i).2.2.symm.trans e⟩) s).safe.step

theorem readAs_keepsTriggers (f : State → List Byte) : KeepsTriggers (readAs f) := fun _ _ s => .refl s

theorem readUnit_keepsTriggers (f : Unit8 → State → List Byte) : KeepsTriggers (readUnit f) := fun _ args s => by
  unfold readUnit
  split <;> exact .refl s

theorem onUnit_keepsTriggers {f : Unit8 → List Byte → State → State × Answer}
    (h : ∀ n args s, TriggersStep s (f n args s).1) : KeepsTriggers (onUnit f) := fun _ args s => by
  unfold onUnit
  split
  · exact .refl s
  · exact h _ args s

theorem onItem_keepsTriggers {f : Item → Master → List Byte → State → State × Answer}
    (h : ∀ it m args s, TriggersStep s (f it m args s).1) : KeepsTriggers (onItem f) := fun m args s => by
  unfold onItem
  split
  · exact .refl s
  · exact h _ m args s

theorem onFrame_keepsTriggers {f : Handle → FrameRecord → Master → State → State × Answer}
    (h : ∀ k r m s, TriggersStep s (f k r m s).1) : KeepsTriggers (onFrame f) := fun m args s => by
  unfold onFrame
  split
  · exact .refl s
  · exact h _ _ m s

/-! ### Position and capture -/

theorem runSetPositionConfig_keepsTriggers : KeepsTriggers runSetPositionConfig := fun _ args s => by
  unfold runSetPositionConfig setPositionConfig
  dsimp only
  split
  · split
    · exact triggersStep_ite (.refl s) (.of_bench rfl)
    · exact .refl s
  · exact .refl s

theorem runSelectSource_keepsTriggers : KeepsTriggers runSelectSource := fun _ args s => by
  unfold runSelectSource
  split
  · exact .refl s
  · split
    · split
      · exact .refl s
      · exact .of_bench (endSwitch_bench _ s)
    · exact .of_kept ((Kept.of_bench (endSwitch_bench .superseded s)).trans (setPosu_kept _ _))

theorem runAbortSwitch_keepsTriggers : KeepsTriggers runAbortSwitch := fun _ _ s => by
  unfold runAbortSwitch
  split
  · exact .refl s
  · exact .of_bench (endSwitch_bench _ s)

theorem runSetSpeed_keepsTriggers : KeepsTriggers runSetSpeed := fun _ args s => by
  unfold runSetSpeed
  dsimp only
  split <;> exact .of_bench rfl

theorem runSetInput_keepsTriggers : KeepsTriggers runSetInput := fun _ args s => by
  unfold runSetInput
  split
  · refine triggersStep_ite (.refl s) (triggersStep_ite (.refl s) ?_)
    dsimp only
    split
    · exact (modInput_kept _ _ s).triggers.trans_step (TriggersSafe.step (setItab_safe rfl rfl rfl))
    · exact .of_bench rfl
  · exact .refl s

theorem runReadCapture_keepsTriggers : KeepsTriggers runReadCapture := fun _ _ s => by
  unfold runReadCapture
  dsimp only
  split <;> exact .of_bench rfl

/-! ### Items -/

theorem runReadItem_keepsTriggers : KeepsTriggers runReadItem := onItem_keepsTriggers fun _ _ _ s => .refl s

theorem runTagItem_keepsTriggers : KeepsTriggers runTagItem := onItem_keepsTriggers fun _ _ _ s =>
  modItem_answered (fun _ => ⟨by rfl, by rfl, by rfl⟩) s _

theorem runWithdrawItem_keepsTriggers : KeepsTriggers runWithdrawItem := onItem_keepsTriggers fun it _ _ s =>
  (withdraw_safe it s).step

theorem runVerdict_keepsTriggers : KeepsTriggers runVerdict := fun _ args s => by
  unfold runVerdict
  split
  · exact .refl s
  · split
    · unfold lateVerdict
      dsimp only
      split
      · exact TriggersSafe.step (setItab_safe rfl rfl rfl)
      · exact .refl s
    · exact triggersStep_ite (TriggersSafe.step (setItab_safe rfl rfl rfl))
        (modItem_answered (fun _ => ⟨by rfl, by rfl, by rfl⟩) s _)

theorem runOverride_keepsTriggers : KeepsTriggers runOverride := fun m args s => by
  unfold runOverride
  split
  · exact .refl s
  · refine onItem_keepsTriggers (fun _ _ _ s => ?_) m args s
    exact triggersStep_ite (.refl s) (modItem_answered (fun _ => ⟨by rfl, by rfl, by rfl⟩) s _)

theorem runSetHoldRejected_keepsTriggers : KeepsTriggers runSetHoldRejected := fun _ args s => by
  unfold runSetHoldRejected
  split
  · exact .refl s
  · exact .of_bench rfl

/-- The geometry changes in an empty table alone, where nothing is said of starts. -/
theorem runSetItemGeometry_keepsTriggers : KeepsTriggers runSetItemGeometry := fun _ args s => by
  unfold runSetItemGeometry
  dsimp only
  split
  · exact .refl s
  · rename_i empty
    replace empty : s.itab.items = [] := by simpa using empty
    split
    · refine triggersStep_ite ⟨fun ok _ => ok, fun _ _ => ?_⟩ (.refl s)
      rw [startsRise_iff, Itab.starts]
      dsimp only [State.setItab]
      rw [empty]
      exact List.Pairwise.nil
    · exact .refl s

/-- What a declaration that no case of R41 turns away says of the newest item. -/
theorem newest_of_declareRefusal {s : State} {start : Pos} {length : Nat} (h : declareRefusal s start length = none)
    {i : Item} (hi : newest s.itab = some i) :
    i.state ≠ .entering ∧ aheadBy s.itab.geometry.minGap start i.start = true := by
  unfold declareRefusal at h
  dsimp only at h
  rw [hi] at h
  simp only [Option.any_some, decide_eq_true_eq, Bool.or_eq_true, Bool.not_eq_true'] at h
  split at h
  · cases h
  · split at h
    · cases h
    · rename_i still
      split at h
      · cases h
      · rename_i ahead
        exact ⟨still, by simpa using fun e => ahead (Or.inl e)⟩

theorem createDeclared_step {it : Item} {s : State} (number : it.number = s.itab.nextNumber) (ended : it.state ≠ .entering)
    (newest_said : ∀ i, newest s.itab = some i →
      i.state ≠ .entering ∧ aheadBy s.itab.geometry.minGap it.start i.start = true) :
    TriggersStep s (createDeclared it s) := by
  have joined : TriggersStep s (appendItem it s) := appendItem_step number (fun i hi => (newest_said i hi).1)
    (fun _ => ended) fun i hi => (newest_said i hi).2
  exact joined.trans_safe (completeIfSettled_kept it.number (appendItem it s)).safe

theorem runDeclareItem_keepsTriggers : KeepsTriggers runDeclareItem := fun _ args s => by
  unfold runDeclareItem
  extract_lets start length tag it
  cases refusal : declareRefusal s start length with
  | some r => exact .refl s
  | none =>
    dsimp only
    exact createDeclared_step (it := it) rfl (fun e => by cases e) fun i hi => newest_of_declareRefusal refusal hi

/-! ### Channels and ports -/

theorem runSetChannel_keepsTriggers : KeepsTriggers runSetChannel := onUnit_keepsTriggers fun _ _ s =>
  triggersStep_ite (.refl s) (triggersStep_ite (.refl s) (modChan_answered (fun _ => by rfl) (fun _ => by rfl) s _))

theorem runSetPulse_keepsTriggers : KeepsTriggers runSetPulse := onUnit_keepsTriggers fun _ args s => by
  dsimp only
  split
  · exact .refl s
  · exact triggersStep_ite (modChan_answered (fun _ => by rfl) (fun _ => by rfl) s _) (.refl s)

theorem runPlanItem_keepsTriggers : KeepsTriggers runPlanItem := onUnit_keepsTriggers fun _ _ s =>
  triggersStep_ite (.refl s) (triggersStep_ite (.refl s) (modChan_answered (fun _ => by rfl) (fun _ => by rfl) s _))

theorem startFreePlan_step (n : Unit8) (pitch : Nat) (plan : Plan) (stopOn : Option (AuxInput × UntilAction)) (s : State) :
    TriggersStep s (startFreePlan n pitch plan stopOn s).1 :=
  triggersStep_ite (.refl s) (triggersStep_ite (.refl s) (modChan_answered (fun _ => by rfl) (fun _ => by rfl) s _))

theorem runRunPitch_keepsTriggers : KeepsTriggers runRunPitch := onUnit_keepsTriggers fun _ _ s =>
  triggersStep_ite (.refl s) (startFreePlan_step _ _ _ _ s)

theorem runRunUntil_keepsTriggers : KeepsTriggers runRunUntil := onUnit_keepsTriggers fun _ args s => by
  split
  · exact triggersStep_ite (.refl s) (startFreePlan_step _ _ _ _ s)
  · exact .refl s

theorem runShootCount_keepsTriggers : KeepsTriggers runShootCount := onUnit_keepsTriggers fun _ _ s =>
  triggersStep_ite (.refl s) (triggersStep_ite (.refl s) (triggersStep_ite (.refl s)
    (modChan_answered (fun _ => by rfl) (fun _ => by rfl) s _)))

theorem runHaltSoft_keepsTriggers : KeepsTriggers runHaltSoft := fun _ _ s =>
  .of_kept (forEachFree_kept (fun n _ s => softHalt_kept n s) s)

theorem runHaltHard_keepsTriggers : KeepsTriggers runHaltHard := fun _ _ s =>
  .of_kept (forEachFree_kept (fun n _ s => hardHalt_kept n s) s)

theorem runSetEject_keepsTriggers : KeepsTriggers runSetEject := fun _ _ s =>
  triggersStep_ite (.of_kept (.of_eq rfl fun _ => .refl _)) (.refl s)

theorem runSetPort_keepsTriggers : KeepsTriggers runSetPort := onUnit_keepsTriggers fun _ args s => by
  dsimp only
  split
  · exact .refl s
  · exact triggersStep_ite (.refl s) (triggersStep_ite (.refl s) (.of_bench rfl))

theorem runEnablePort_keepsTriggers : KeepsTriggers runEnablePort := onUnit_keepsTriggers fun _ _ s =>
  triggersStep_ite (.refl s) (.of_kept (settleAs_kept _ _ s))

theorem runDisablePort_keepsTriggers : KeepsTriggers runDisablePort := onUnit_keepsTriggers fun _ _ s =>
  triggersStep_ite (.refl s) (.of_kept (settleAs_kept _ _ s))

/-- Of the window of a port that is reset nothing that TRGU still holds stays. -/
theorem resetPort_kept (n : Unit8) (s : State) : Kept s (resetPort n s) :=
  (hardHalt_kept n s).trans ((modChan_kept (.of_eq rfl rfl)).trans ((modPort_kept n _ _).trans (settleAs_kept n _ _)))

theorem runResetPort_keepsTriggers : KeepsTriggers runResetPort := onUnit_keepsTriggers fun n _ s =>
  .of_kept (resetPort_kept n s)

theorem runSetConversion_keepsTriggers : KeepsTriggers runSetConversion := onUnit_keepsTriggers fun _ args s => by
  split
  · exact triggersStep_ite (.refl s) (triggersStep_ite (.refl s) (.of_bench rfl))
  · exact .refl s

theorem runSetPreview_keepsTriggers : KeepsTriggers runSetPreview := onUnit_keepsTriggers fun _ args s => by
  dsimp only
  split
  · exact .refl s
  · exact triggersStep_ite (.of_bench rfl) (.refl s)

/-! ### Store, link, forwarder and notices -/

theorem runReadFrame_keepsTriggers : KeepsTriggers runReadFrame := onFrame_keepsTriggers fun _ _ _ s => .refl s

theorem runHold_keepsTriggers : KeepsTriggers runHold := onFrame_keepsTriggers fun _ _ _ s =>
  triggersStep_ite (.refl s) (.of_bench (modRecord_bench _ _ s))

theorem runRelease_keepsTriggers : KeepsTriggers runRelease := onFrame_keepsTriggers fun _ _ _ s =>
  triggersStep_ite (.of_bench (modRecord_bench _ _ s)) (.refl s)

theorem runDiscard_keepsTriggers : KeepsTriggers runDiscard := onFrame_keepsTriggers fun _ _ _ s =>
  triggersStep_ite (.refl s) (triggersStep_ite (.refl s) (.of_bench (freeRecord_bench _ s)))

theorem runClearStore_keepsTriggers : KeepsTriggers runClearStore := fun _ _ s =>
  .of_kept ((foldl_kept (clearableHandles s) (fun h _ s => Kept.of_bench (freeRecord_bench h s)) s).trans
    (.of_bench (setOffice_bench _ _)))

theorem runSetLowWater_keepsTriggers : KeepsTriggers runSetLowWater := fun _ _ s =>
  triggersStep_ite (.of_bench rfl) (.refl s)

theorem runRetrainLink_keepsTriggers : KeepsTriggers runRetrainLink := fun m _ s => by
  cases m with
  | line => exact .of_kept (retrainNow_kept s)
  | office => exact triggersStep_ite (.refl s) (.of_bench rfl)

theorem runCredit_keepsTriggers : KeepsTriggers runCredit := fun _ _ s =>
  triggersStep_ite (.refl s) (triggersStep_ite (.of_bench rfl) (.of_bench rfl))

theorem runPull_keepsTriggers : KeepsTriggers runPull := onFrame_keepsTriggers fun _ _ _ s =>
  triggersStep_ite (.refl s) (triggersStep_ite (.refl s) (triggersStep_ite (.of_bench (joinPull_bench _ s))
    (.of_bench (modRecord_bench _ _ s))))

theorem runCancelPull_keepsTriggers : KeepsTriggers runCancelPull := onFrame_keepsTriggers fun h r _ s => by
  cases r.fullState with
  | none => exact .refl s
  | sent => exact .refl s
  | await => exact .of_bench (modRecord_bench _ _ s)
  | queued => exact .of_kept ((modFwd_kept _ s).trans (modRecord_kept _ _ _))
  | sending => exact .of_kept ((modFwd_kept _ s).trans (modRecord_kept _ _ _))

theorem runSetAutoFull_keepsTriggers : KeepsTriggers runSetAutoFull := onUnit_keepsTriggers fun _ args s => by
  split
  · exact .refl s
  · exact .of_bench rfl

theorem runReadStatus_keepsTriggers : KeepsTriggers runReadStatus := fun m _ s => by
  cases m <;> exact .of_bench rfl

theorem runSetNoticeMask_keepsTriggers : KeepsTriggers runSetNoticeMask := fun m _ s => by
  cases m with
  | line => exact .of_bench rfl
  | office =>
    refine .of_bench ?_
    dsimp only [runSetNoticeMask]
    unfold callOffice offerNotice
    split
    · split <;> rfl
    · rfl

end Sys2Proof.Machine
end

section
/-! PROOFS. The two ways in, resets, and every step: item numbers, starts, ENTERING and the shot queues (O58). -/

namespace Sys2Proof.Machine

/-! ## The two ways in -/

/-- Before and after a request neither items nor channels change. -/
theorem TriggersStep.within {a b c d : State} (h : TriggersStep b c) (before : b.bench = a.bench) (after : d.bench = c.bench) :
    TriggersStep a d := ((Kept.of_bench before).triggers.trans_step h).trans_safe (Kept.of_bench after).safe

theorem serve_step {found : Option OpSpec} (run : ∀ o, found = some o → KeepsTriggers o.run) (m : Master)
    (args : List Byte) (s : State) : TriggersStep s (serve found m args s).1 := by
  unfold serve
  split
  · exact .refl s
  · split
    · exact .refl s
    · split
      · exact .refl s
      · exact run _ rfl m args s

theorem beginTransaction_bench (bytes : List Byte) (s : State) : (beginTransaction bytes s).bench = s.bench := by
  unfold beginTransaction
  dsimp only
  split <;> rfl

theorem localRequest_step {found : Option OpSpec} (run : ∀ o, found = some o → KeepsTriggers o.run) (args : List Byte)
    (s : State) : TriggersStep s (localRequest found args s) := by
  unfold localRequest
  dsimp only
  split
  · exact (serve_step run .line args (State.setRnu { s with pins := { s.pins with csLow := false } }
      { s.rnu with response := [], transaction := none })).within rfl rfl
  · exact .of_bench rfl

theorem remoteRequest_step {found : Option OpSpec} (run : ∀ o, found = some o → KeepsTriggers o.run) (tag : BitVec 16)
    (op : Byte) (args : List Byte) (s : State) : TriggersStep s (remoteRequest found tag op args s) := by
  unfold remoteRequest
  split
  · exact .of_bench (setOffice_bench _ _)
  · exact (serve_step run .office args (modFwd (fun f => { f with reserved := true }) s)).within rfl rfl

theorem receiveRequest_step {found : Option OpSpec} (run : ∀ o, found = some o → KeepsTriggers o.run) (tag : BitVec 16)
    (op : Byte) (args : List Byte) (s : State) : TriggersStep s (receiveRequest found tag op args s) := by
  unfold receiveRequest
  split
  · dsimp only
    split
    · exact ((modLnk_kept _ s).trans (countLnk_kept _ _)).triggers.trans_step (remoteRequest_step run tag op args _)
    · exact .of_kept ((modLnk_kept _ s).trans (countLnk_kept _ _))
  · exact .refl s

theorem takeRequest_step {o : OpSpec} (run : KeepsTriggers o.run) (v : Via) (args : List Byte) (s : State) :
    TriggersStep s (takeRequest o v args s) := by
  have found : ∀ p, some o = some p → KeepsTriggers p.run := fun p e => Option.some.inj e ▸ run
  cases v with
  | fall => exact .of_bench (beginTransaction_bench _ s)
  | line => exact localRequest_step found args s
  | office tag => exact receiveRequest_step found tag _ args s

/-! ## Resets -/

/-- With no item and every channel as a reset leaves it there is nothing to bound. -/
theorem triggersStep_of_empty {s t : State} (items : t.itab.items = []) (fresh : ∀ n, t.chan n = {}) : TriggersStep s t := by
  refine ⟨fun _ _ => ⟨?_, ?_, fun n => ?_⟩, fun _ _ => ?_⟩
  · rw [items]
    exact List.nodup_nil
  · rw [items]
    exact fun i hi => absurd hi List.not_mem_nil
  · rw [fresh]
    exact ⟨by decide, List.nodup_nil, fun e he => absurd he List.not_mem_nil⟩
  · rw [startsRise_iff, Itab.starts, items]
    exact List.Pairwise.nil

theorem deviceReset_step (hold : ResetHold) (s : State) : TriggersStep s (deviceReset hold s) :=
  triggersStep_of_empty rfl (deviceReset_freshUnits hold s).chan

theorem runResetDevice_keepsTriggers : KeepsTriggers runResetDevice := fun _ _ s => deviceReset_step _ s

theorem bootUp_step (s : State) : TriggersStep s (bootUp s) := by
  unfold bootUp
  extract_lets s1 s2
  have h2 : Kept s1 s2 := .of_bench rfl
  exact (deviceReset_step {} s).trans_safe (h2.trans ((alignIfLit_kept s2).trans (startFill_kept _))).safe

theorem takeResetEnd_step (c : ResetCause) (s : State) : TriggersStep s (takeResetEnd c s) := by
  unfold takeResetEnd
  dsimp only
  split
  · split
    · exact .of_bench rfl
    · exact (bootUp_step _).within rfl rfl
  · exact .refl s

/-! ## Every step -/

/-- Every row of the command table keeps what `TriggersOk` says, and rising starts. -/
theorem opTable_keepsTriggers : ∀ o ∈ opTable, KeepsTriggers o.run := by
  simp only [opTable, List.forall_mem_append, List.forall_mem_cons, List.not_mem_nil, false_implies, implies_true, and_true]
  refine ⟨⟨⟨⟨⟨?_, ?_⟩, ?_⟩, ?_⟩, ?_⟩, ?_⟩
  · exact ⟨fun _ _ s => .refl s, runReadStatus_keepsTriggers, runSetNoticeMask_keepsTriggers, runResetDevice_keepsTriggers,
      readAs_keepsTriggers _, readAs_keepsTriggers _, runSetPositionConfig_keepsTriggers, runSelectSource_keepsTriggers,
      runAbortSwitch_keepsTriggers, runSetSpeed_keepsTriggers, readAs_keepsTriggers _, runSetInput_keepsTriggers,
      runReadCapture_keepsTriggers⟩
  · exact ⟨runReadItem_keepsTriggers, readAs_keepsTriggers _, readAs_keepsTriggers _, runSetItemGeometry_keepsTriggers,
      runDeclareItem_keepsTriggers, runTagItem_keepsTriggers, runWithdrawItem_keepsTriggers⟩
  · exact ⟨readUnit_keepsTriggers _, runSetChannel_keepsTriggers, runSetPulse_keepsTriggers, runPlanItem_keepsTriggers,
      runRunPitch_keepsTriggers, runShootCount_keepsTriggers, runRunUntil_keepsTriggers, runHaltSoft_keepsTriggers,
      runHaltHard_keepsTriggers, readAs_keepsTriggers _, runSetEject_keepsTriggers⟩
  · exact ⟨readUnit_keepsTriggers _, runSetPort_keepsTriggers, runEnablePort_keepsTriggers, runDisablePort_keepsTriggers,
      runResetPort_keepsTriggers, readUnit_keepsTriggers _, runSetConversion_keepsTriggers, runSetPreview_keepsTriggers⟩
  · exact ⟨runReadFrame_keepsTriggers, readAs_keepsTriggers _, runHold_keepsTriggers, runRelease_keepsTriggers,
      runDiscard_keepsTriggers, runClearStore_keepsTriggers, runSetLowWater_keepsTriggers, runVerdict_keepsTriggers,
      runOverride_keepsTriggers, runSetHoldRejected_keepsTriggers, readAs_keepsTriggers _⟩
  · exact ⟨readAs_keepsTriggers _, runRetrainLink_keepsTriggers, readAs_keepsTriggers _, runCredit_keepsTriggers,
      runPull_keepsTriggers, runCancelPull_keepsTriggers, runSetAutoFull_keepsTriggers⟩

theorem takeFrame_step (content : List Byte) (crc : BitVec 32) (s : State) : TriggersStep s (takeFrame content crc s) := by
  have idle : TriggersStep s (takeIdleFrame content crc s) := by
    unfold takeIdleFrame
    split <;> exact .of_bench rfl
  have control : TriggersStep s (takeControlFrame content crc s) := by
    unfold takeControlFrame
    split
    · exact .of_bench rfl
    · split
      · exact .of_bench rfl
      · exact receiveRequest_step (fun o e => opTable_keepsTriggers o (lookupOp_mem e)) _ _ _ s
  unfold takeFrame
  split
  · split
    · exact .refl s
    · split
      · exact idle
      · exact .refl s
    · split
      · exact control
      · exact .refl s
    · split
      · exact control
      · exact .refl s
  · exact .refl s

theorem event_triggers {i : Instr} (hi : rowOf i = none) (s : State) : LeadsTo (TriggersStep s) (exec i s) := by
  cases i with
  | quadEdge a b => exact leadsTo_next (takeQuadEdge_safe a b s).step
  | stepEdge d => exact leadsTo_next (takeStepEdge_safe d s).step
  | generatorCount => exact leadsTo_next (takeGeneratorCount_safe s).step
  | switchDeadline => exact leadsTo_next (.of_kept (takeSwitchDeadline_kept s))
  | silenceExpiry => exact leadsTo_next (.of_kept (takeSilenceExpiry_kept s))
  | speedIntervalEnd => exact leadsTo_next (.of_kept (takeIntervalEnd_kept s))
  | capturePinChange i l => exact leadsTo_next (takePinChange_step i l s)
  | filterExpiry i => exact leadsTo_next (takeFilterExpiry_step i s)
  | ejectPulseEnd => exact leadsTo_next (.of_kept (takeEjectEnd_kept s))
  | triggerPulseEnd n => exact leadsTo_next (.of_kept (takeTriggerEnd_kept n s))
  | strobeDelayEnd n => exact leadsTo_next (.of_kept (takeStrobeDelayEnd_kept n s))
  | strobePulseEnd n => exact leadsTo_next (.of_kept (takeStrobeEnd_kept n s))
  | lockGained n => exact leadsTo_next (.of_kept (takeLockGained_kept n s))
  | lockLost n => exact leadsTo_next (.of_kept (takeLockLost_kept n s))
  | fsWord n c => exact leadsTo_next (.of_kept (takeFs_kept n c s))
  | lnWord n l => exact leadsTo_next (.of_kept (takeLn_kept n l s))
  | feWord n => exact leadsTo_next (.of_kept (takeFe_kept n s))
  | frameWindowExpiry n => exact leadsTo_next (.of_kept (takeWindowExpiry_kept n s))
  | lightGained => exact leadsTo_next (.of_kept (takeLightGained_kept s))
  | lightLost => exact leadsTo_next (.of_kept (takeLightLost_kept s))
  | receivedDelimiter d => exact leadsTo_next (.of_kept (takeDelimiter_kept d s))
  | huntDelimiterFound d => exact leadsTo_next (.of_kept (takeHuntDelimiter_kept d s))
  | huntSpanExpiry => exact leadsTo_next (.of_kept (takeHuntSpan_kept s))
  | controlHeaderReceived l => exact leadsTo_next (.of_kept (takeControlHeader_kept l s))
  | frameReceived c crc => exact leadsTo_next (takeFrame_step c crc s)
  | retrainHoldEnd => exact leadsTo_next (.of_kept (takeHoldEnd_kept s))
  | transmitFrameEnd => exact leadsTo_next (.of_kept (takeFrameEnd_kept s))
  | powerOn r => exact leadsTo_next (deviceReset_step _ s)
  | rstAsserted => exact leadsTo_next (deviceReset_step _ s)
  | resetEnd c => exact leadsTo_next (takeResetEnd_step c s)
  | unknownOperation op args =>
    exact leadsTo_next (localRequest_step (fun o e => opTable_keepsTriggers o (lookupOp_mem e)) args s)
  | _ => simp [rowOf] at hi

theorem exec_triggers (i : Instr) {s t : State} (e : exec i s = .next t) : TriggersStep s t := by
  cases hi : rowOf i with
  | none => exact event_triggers hi s t e
  | some o =>
    obtain ⟨v, args, hr⟩ := request_of_rowOf hi
    rw [exec_request hi hr] at e
    exact leadsTo_next (takeRequest_step (opTable_keepsTriggers o (rowOf_mem hi)) v args s) t e

/-- The queue and the free orders are neither items nor channels. -/
theorem step_triggers {s t : State} (e : step s = .next t) : TriggersStep s t := by
  rcases step_cases s with ⟨c, rest, -, eq⟩ | ⟨-, -, eq⟩ | ⟨-, c, -, eq | eq⟩
  · rw [eq] at e
    exact (exec_triggers c e).within rfl rfl
  · rw [eq] at e
    exact leadsTo_next (.of_bench (elapse_bench 1 s)) t e
  · rw [eq] at e
    exact exec_triggers c e
  · rw [eq] at e
    exact (exec_triggers c e).within rfl rfl

/-- Settles O58: items leave their queues before the table, an entry joins a queue where the load has room for it, and an item
joins the table where the newest is not ENTERING. -/
theorem stepsKeepTheTriggers : Obligations.StepsKeepTheTriggers := fun _ _ ok free e =>
  ⟨(step_triggers e).ok ok free, fun rise half _ => (step_triggers e).rise rise half⟩

end Sys2Proof.Machine
end

section
/-! PROOFS. The capture pins: filters (O22), the classifier, the aux FIFO and READ_CAPTURE (O23). -/

namespace Sys2Proof.Machine

/-! ## Filters -/

theorem reachTime_capu (t : Stamp) (s : State) : (reachTime t s).capu = s.capu := by
  unfold reachTime elapse
  split
  · rfl
  · split <;> rfl

/-- An edge is accepted in the unit of its input (R23). -/
theorem acceptEdge_eq (i : CaptureInput) (l : Level) (pos : Pos) (stamp : Stamp) (s : State) : acceptEdge i l pos stamp s =
    classify i l pos stamp (s.setCapu (s.capu.setInput i { s.capu.input i with filtered := l, pendingEdge := none })) := rfl

/-- In reset a pin changes and nothing follows (R20). -/
theorem takePinChange_reset {i : CaptureInput} {l : Level} {s : State} (h : inReset s = true) :
    takePinChange i l s = { s with pins := s.pins.setLevel i l } := if_pos h

/-- Out of reset a pin change ends a pending edge, goes by unheard behind one, is accepted at once, or starts the filter time. -/
theorem takePinChange_running {i : CaptureInput} {l : Level} {s : State} (h : inReset s = false) : takePinChange i l s =
    let s1 := { s with pins := s.pins.setLevel i l }
    let u := s.capu.input i
    if l = u.filtered then s1.setCapu (s.capu.setInput i { u with pendingEdge := none })
    else if u.pendingEdge.isSome then s1
    else if u.filter = 0 then acceptEdge i l s.posu.position s.stamp s1
    else s1.setCapu (s.capu.setInput i { u with pendingEdge := some {
      level := l, position := s.posu.position, stamp := s.stamp, due := stampPlus s.stamp u.filter } }) := by
  unfold takePinChange
  rw [h]
  rfl

theorem takeFilterExpiry_some {i : CaptureInput} {e : PendingEdge} {s : State} (h : inReset s = false)
    (he : (s.capu.input i).pendingEdge = some e) :
    takeFilterExpiry i s = acceptEdge i e.level e.position e.stamp (reachTime e.due s) := by
  unfold takeFilterExpiry
  rw [he, h]
  rfl

theorem takeFilterExpiry_none {i : CaptureInput} {s : State} (he : (s.capu.input i).pendingEdge = none) :
    takeFilterExpiry i s = s := by
  unfold takeFilterExpiry
  rw [he]

theorem takeFilterExpiry_reset {i : CaptureInput} {s : State} (h : inReset s = true) : takeFilterExpiry i s = s := by
  unfold takeFilterExpiry
  rw [h]
  split <;> rfl

/-- Settles O22: a pin change by the four cases of R23, and the end of a filter time. -/
theorem filtersAcceptEdgesAfterTheirTime : Obligations.FiltersAcceptEdgesAfterTheirTime := by
  intro i l s s1 u
  have change : exec (.capturePinChange i l) s = .next (takePinChange i l s) := rfl
  have expiry : exec (.filterExpiry i) s = .next (takeFilterExpiry i s) := rfl
  rw [change, expiry]
  refine ⟨fun h => ⟨by rw [takePinChange_reset h], by rw [takeFilterExpiry_reset h]⟩, fun h => ?_⟩
  rw [takePinChange_running h]
  refine ⟨fun same => ?_, fun new idle filter => ?_, fun new idle filter => ?_, fun new pending => ?_, fun idle => ?_,
    fun e he => ?_⟩
  · exact congrArg _ (if_pos same)
  · refine congrArg _ ((if_neg new).trans ((if_neg ?_).trans (if_neg filter.ne')))
    simp [u, idle]
  · refine congrArg _ ((if_neg new).trans ((if_neg ?_).trans (if_pos filter)))
    simp [u, idle]
  · exact congrArg _ ((if_neg new).trans (if_pos (Option.isSome_iff_ne_none.2 pending)))
  · rw [takeFilterExpiry_none idle]
  · rw [takeFilterExpiry_some h he, acceptEdge_eq, reachTime_capu]

/-! ## The classifier -/

/-- The edges that a selection takes (R24). -/
theorem selects_iff (sel : EdgeSelection) (l : Level) : sel.selects (edgeTo l) = true ↔
    sel = .both ∨ (sel = .rise ∧ l = .high) ∨ (sel = .fall ∧ l = .low) := by
  cases sel <;> cases l <;> decide

theorem classify_out {i : CaptureInput} {l : Level} {s : State} (h : ¬(s.capu.input i).edges.selects (edgeTo l) = true)
    (pos : Pos) (stamp : Stamp) : classify i l pos stamp s = s := if_neg h

/-- A selected edge goes to its input's meaning (R24). -/
theorem classify_in {i : CaptureInput} {l : Level} {s : State} (h : (s.capu.input i).edges.selects (edgeTo l) = true)
    (pos : Pos) (stamp : Stamp) : classify i l pos stamp s =
    match i with
    | .item => if l = (s.capu.input i).level then leadingEdge pos s else trailingEdge pos s
    | .stop => if l = (s.capu.input i).level then stopAsserted s else s
    | .aux1 => auxEdge .aux1 (s.capu.input i).role (edgeTo l) pos stamp s
    | .aux2 => auxEdge .aux2 (s.capu.input i).role (edgeTo l) pos stamp s := by
  unfold classify
  cases i <;> exact if_pos h

theorem offerCapture_room {s : State} (h : s.capu.fifo.length < 16) (r : CaptureRecord) :
    offerCapture r s = s.setCapu { s.capu with fifo := s.capu.fifo ++ [r] } := if_pos h

theorem offerCapture_full {s : State} (h : 16 ≤ s.capu.fifo.length) (r : CaptureRecord) : offerCapture r s =
    (s.setCapu { s.capu with dropped := min 65535 (s.capu.dropped + 1) }).setRnu
      { s.rnu with lineView := s.rnu.lineView ||| 0x00000010 } := if_neg (Nat.not_lt.2 h)

/-- READ_CAPTURE with nothing in the FIFO (R28). -/
theorem runReadCapture_nil {m : Master} {args : List Byte} {s : State} (h : s.capu.fifo = []) :
    runReadCapture m args s = (s.setCapu { s.capu with dropped := 0 }, 0x14 :: be 2 s.capu.dropped) := by
  have same : s.capu.fifo.tail = s.capu.fifo := by rw [h]; rfl
  unfold runReadCapture
  dsimp only
  rw [same, h]
  rfl

/-- READ_CAPTURE takes the oldest record (R28). -/
theorem runReadCapture_cons {m : Master} {args : List Byte} {s : State} {r : CaptureRecord} {rest : List CaptureRecord}
    (h : s.capu.fifo = r :: rest) : runReadCapture m args s = (s.setCapu { s.capu with fifo := rest, dropped := 0 },
      0x01 :: (captureBytes r ++ be 1 rest.length ++ be 2 s.capu.dropped)) := by
  unfold runReadCapture
  dsimp only
  rw [h]
  rfl

/-- Settles O23: the meaning of a selected edge by its input, and READ_CAPTURE by what the FIFO holds. -/
theorem theClassifierFillsTheAuxFifo : Obligations.TheClassifierFillsTheAuxFifo := by
  refine ⟨?_, fun args s hc => ⟨fun empty => ?_, fun r rest oldest => ?_⟩⟩
  · intro i l pos stamp s u taken
    refine ⟨fun out => classify_out (mt (selects_iff _ _).1 out) pos stamp, fun sel => ?_⟩
    replace sel := classify_in ((selects_iff _ _).2 sel) pos stamp
    refine ⟨?_, ?_, fun a ha => ⟨?_, fun room => offerCapture_room room _, fun full => offerCapture_full full _⟩⟩
    · rintro rfl
      exact sel
    · rintro rfl
      exact sel
    · cases a with
      | aux1 => subst ha; cases l <;> exact sel
      | aux2 => subst ha; cases l <;> exact sel
  · exact serves_lineOp rfl rfl hc (Nat.zero_le _) (runReadCapture_nil (s := ready .line s) empty)
  · exact serves_lineOp rfl rfl hc (Nat.zero_le _) (runReadCapture_cons (s := ready .line s) oldest)

end Sys2Proof.Machine
end

section
/-! PROOFS. The edges of ITEM and the blind list (O26). -/

namespace Sys2Proof.Machine

theorem behind_iff {a b : Pos} : behind a b = true ↔ 1 ≤ (b - a).toNat ∧ (b - a).toNat < 2 ^ 31 := by simp [behind]

/-- R34 case 1. -/
theorem refusesEdge_iff (t : Itab) (p : Pos) : refusesEdge t p = true ↔ ∃ it, t.items.getLast? = some it ∧
    (it.state = .entering ∨ ¬(t.geometry.minGap ≤ (p - it.start).toNat ∧ (p - it.start).toNat < 2 ^ 31) ∨
      ∃ e, it.endPos = some e ∧ behind p e = true) := by
  unfold refusesEdge newest
  cases t.items.getLast? with
  | none => simp
  | some it =>
    simp only [Option.some.injEq, exists_eq_left', Bool.or_eq_true, decide_eq_true_eq, Bool.not_eq_true', Option.any_eq_true,
      or_assoc, ← Bool.not_eq_true, aheadBy_iff]

theorem leadingEdge_refused {p : Pos} {s : State} (h : refusesEdge s.itab p = true) : leadingEdge p s =
    s.setItab { s.itab with refusedEdges := s.itab.refusedEdges + 1, suppression := true } := if_pos h

theorem leadingEdge_accepted {p : Pos} {s : State} (h : refusesEdge s.itab p = false) (room : s.itab.items.length < 64) :
    leadingEdge p s = createFromEdge p (s.setItab { s.itab with suppression := false }) :=
  (if_neg (Bool.eq_false_iff.1 h)).trans (if_neg (Nat.not_le.2 room))

/-- An edge that finds the table full (R34 case 2). -/
theorem leadingEdge_overflow {p : Pos} {s : State} (h : refusesEdge s.itab p = false) (full : 64 ≤ s.itab.items.length) :
    leadingEdge p s = offerBlind (posPlus p s.itab.geometry.ejectDistance) (setBoth .itemOverflow
      (s.setItab { s.itab with overflowEdges := s.itab.overflowEdges + 1, suppression := true })) :=
  (if_neg (Bool.eq_false_iff.1 h)).trans (if_pos full)

theorem offerBlind_ignore {s : State} (h : s.itab.geometry.blindPolicy = .ignore) (p : Pos) : offerBlind p s = s := by
  rw [offerBlind, h]

theorem offerBlind_room {s : State} (h : s.itab.geometry.blindPolicy = .reject) (room : s.itab.blind.length < 8) (p : Pos) :
    offerBlind p s = s.setItab { s.itab with blind := placeBlind s.posu.position p s.itab.blind } := by
  rw [offerBlind, h]
  exact if_pos room

theorem offerBlind_full {s : State} (h : s.itab.geometry.blindPolicy = .reject) (full : 8 ≤ s.itab.blind.length) (p : Pos) :
    offerBlind p s = setBoth .blindLost (s.setItab { s.itab with blindLost := s.itab.blindLost + 1 }) := by
  rw [offerBlind, h]
  exact if_neg (Nat.not_lt.2 full)

/-- A notice leaves the table and the position. -/
theorem setBoth_sides (n : Notice) (s : State) : (setBoth n s).itab = s.itab ∧ (setBoth n s).posu = s.posu := by
  rw [setBoth_rest]
  exact ⟨rfl, rfl⟩

/-- The end of R37 case 2: the edge, or the greatest length, or 1 count. -/
theorem trailingEnd_eq (maxLength : Nat) (start q : Pos) : trailingEnd maxLength start q =
    if 1 ≤ (q - start).toNat ∧ (q - start).toNat < 2 ^ 31 then
      (if (q - start).toNat ≤ maxLength then q else start + BitVec.ofNat 32 maxLength)
    else start + 1 := by
  rw [trailingEnd]
  simp only [aheadBy_iff]
  rfl

theorem trailingEdge_suppressed {s : State} (h : s.itab.suppression = true) (q : Pos) :
    trailingEdge q s = s.setItab { s.itab with suppression := false } := if_pos h

theorem trailingEdge_still {s : State} (h : s.itab.suppression = false) (still : newestEntering s = false) (q : Pos) :
    trailingEdge q s = s := by
  unfold trailingEdge
  unfold newestEntering at still
  rw [h]
  cases found : newest s.itab with
  | none => rfl
  | some it =>
    rw [found] at still
    exact if_neg (of_decide_eq_false still)

theorem trailingEdge_entering {s : State} {it : Item} (h : s.itab.suppression = false) (found : newest s.itab = some it)
    (entering : it.state = .entering) (q : Pos) :
    trailingEdge q s = endItem it.number (trailingEnd s.itab.geometry.maxLength it.start q) false s := by
  unfold trailingEdge
  rw [h, found]
  exact if_pos entering

/-- Settles O26: the blind list by `placeBlind_split`, a leading edge by the cases of R34 and a trailing one by those of R37. -/
theorem itemEdgesMakeAndEndItems : Obligations.ItemEdgesMakeAndEndItems := by
  refine ⟨placeBlind_split, fun p s => ⟨refusesEdge_iff s.itab p, leadingEdge_refused, leadingEdge_accepted,
    fun h full => ?_⟩, fun q s => ⟨fun h => trailingEdge_suppressed h q, fun h still => trailingEdge_still h still q,
    fun it h found entering => ?_⟩⟩
  · obtain ⟨itab, posu⟩ := setBoth_sides .itemOverflow
      (s.setItab { s.itab with overflowEdges := s.itab.overflowEdges + 1, suppression := true })
    rw [leadingEdge_overflow h full]
    dsimp only
    generalize setBoth .itemOverflow _ = o at itab posu
    refine ⟨fun policy => offerBlind_ignore ?_ _, fun policy room => ?_, fun policy lost => ?_⟩
    · rw [itab]
      exact policy
    · rw [offerBlind_room (by rw [itab]; exact policy) (by rw [itab]; exact room), posu, itab]
      rfl
    · rw [offerBlind_full (by rw [itab]; exact policy) (by rw [itab]; exact lost), itab]
      rfl
  · rw [trailingEdge_entering h found entering, trailingEnd_eq]

end Sys2Proof.Machine
end

section
/-! PROOFS. TAG_ITEM, VERDICT and OVERRIDE, and numbers that are not live (O28). -/

namespace Sys2Proof.Machine

/-! ## Lookup -/

/-- A number of three bytes is gone where its back distance lies among the numbers assigned (R33). -/
theorem isGone_iff (t : Itab) (args : List Byte) (off : Nat) : isGone t (argNat args off 3) = true ↔
    argNat args off 3 ≠ 0 ∧ 1 ≤ (t.nextNumber + 16777215 - argNat args off 3) % 16777215 ∧
      (t.nextNumber + 16777215 - argNat args off 3) % 16777215 ≤ t.assigned := by
  have range : argNat args off 3 ≤ lastNumber := Nat.le_of_lt_succ (argNat_lt args off 3)
  unfold isGone backDistance
  rw [Bool.and_eq_true_iff, Bool.and_eq_true_iff, Bool.and_eq_true_iff, decide_eq_true_iff, decide_eq_true_iff,
    decide_eq_true_iff, decide_eq_true_iff, and_iff_left range, and_assoc]
  rfl

/-- The answer for a number that is not live (R33). -/
theorem say_absentItem {P : Prop} [Decidable P] {t : Itab} {n : Nat} (h : isGone t n = true ↔ P) :
    say (absentItem t n) = if P then [0x08] else [0x07] := by
  unfold absentItem
  by_cases p : P
  · rw [if_pos (h.2 p), if_pos p]
    rfl
  · rw [if_neg (mt h.1 p), if_neg p]
    rfl

theorem onItem_some {f : Item → Master → List Byte → State → State × Answer} {args : List Byte} {s : State} {it : Item}
    (h : findItem s (argNat args 0 3) = some it) (m : Master) : onItem f m args s = f it m args s := by
  unfold onItem
  rw [h]

theorem onItem_none {f : Item → Master → List Byte → State → State × Answer} {args : List Byte} {s : State}
    (h : findItem s (argNat args 0 3) = none) (m : Master) :
    onItem f m args s = (s, say (absentItem s.itab (argNat args 0 3))) := by
  unfold onItem
  rw [h]

/-! ## Verdicts -/

theorem verdictOf_code (v : Verdict) : verdictOf v.code.toNat = some v := by cases v <;> rfl

theorem verdictOf_none {n : Nat} (h : n = 0 ∨ 3 ≤ n) : verdictOf n = none := by
  rcases n with _ | _ | _ | n
  · rfl
  · omega
  · omega
  · rfl

theorem choiceOf_code (v : Verdict) : choiceOf v.code.toNat = some (some v) := by cases v <;> rfl

theorem choiceOf_none {n : Nat} (h : 3 ≤ n) : choiceOf n = none := by
  rcases n with _ | _ | _ | n
  · omega
  · omega
  · omega
  · rfl

theorem choiceOf_le {n : Nat} (h : n ≤ 2) : ∃ c, choiceOf n = some c := by
  rcases n with _ | _ | _ | n
  · exact ⟨_, rfl⟩
  · exact ⟨_, rfl⟩
  · exact ⟨_, rfl⟩
  · omega

/-- VERDICT for a live item (R135). -/
theorem runVerdict_live {m : Master} {args : List Byte} {s : State} {it : Item} {v : Verdict}
    (hv : verdictOf (argNat args 3 1) = some v) (h : findItem s (argNat args 0 3) = some it) : runVerdict m args s =
    (if it.lineOverride = none then modItem it.number (fun i => { i with officeVerdict := some v }) s
      else s.setItab { s.itab with overridden := s.itab.overridden + 1 },
     if it.lineOverride = none then [0x01] else [0x10]) := by
  unfold runVerdict
  simp only [hv, h]
  cases it.lineOverride <;> rfl

/-- VERDICT for a number that is not live (R135). -/
theorem runVerdict_absent {m : Master} {args : List Byte} {s : State} {v : Verdict}
    (hv : verdictOf (argNat args 3 1) = some v) (h : findItem s (argNat args 0 3) = none) :
    runVerdict m args s = lateVerdict (argNat args 0 3) s := by
  unfold runVerdict
  simp only [hv, h]

theorem runVerdict_out {m : Master} {args : List Byte} {s : State} (hv : verdictOf (argNat args 3 1) = none) :
    runVerdict m args s = (s, [0x03]) := by
  unfold runVerdict
  simp only [hv]
  rfl

theorem lateVerdict_eq {P : Prop} [Decidable P] {n : Nat} {s : State} (h : isGone s.itab n = true ↔ P) : lateVerdict n s =
    (if P then s.setItab { s.itab with lateVerdicts := s.itab.lateVerdicts + 1 } else s,
     if P then [0x08] else [0x07]) := by
  unfold lateVerdict
  simp only [say_absentItem h, h]

/-- OVERRIDE for a live item (R136). -/
theorem runOverride_live {m : Master} {args : List Byte} {s : State} {it : Item} {c : Option Verdict}
    (hc : choiceOf (argNat args 3 1) = some c) (h : findItem s (argNat args 0 3) = some it) : runOverride m args s =
    if c = none ∧ it.lineOverride = none then (s, [0x0F])
    else (modItem it.number (fun i => { i with lineOverride := c }) s, [0x01]) := by
  unfold runOverride
  simp only [hc, onItem_some h]
  cases c <;> cases it.lineOverride <;> rfl

theorem runOverride_absent {m : Master} {args : List Byte} {s : State} {c : Option Verdict}
    (hc : choiceOf (argNat args 3 1) = some c) (h : findItem s (argNat args 0 3) = none) :
    runOverride m args s = (s, say (absentItem s.itab (argNat args 0 3))) := by
  unfold runOverride
  simp only [hc, onItem_none h]

theorem runOverride_out {m : Master} {args : List Byte} {s : State} (hc : choiceOf (argNat args 3 1) = none) :
    runOverride m args s = (s, [0x03]) := by
  unfold runOverride
  simp only [hc]
  rfl

/-! ## Answers -/

/-- A request of OFFICE alone that OFFICE sends is served by its rule. -/
theorem serves_officeOp {i : Instr} {tag : BitVec 16} {code : Byte} {n : Nat} {run : Handler} {args : List Byte}
    {s t : State} {a : Answer} (hrow : rowOf i = some (officeOp code n run)) (hreq : i.request? = some (.office tag, args))
    (hc : CanServe (.office tag) s) (hl : n ≤ args.length) (hrun : run .office args (ready (.office tag) s) = (t, a)) :
    Serves i (.office tag) code args s t a :=
  serves_of_run _ hrow hreq rfl hc rfl hl hrun

/-- Settles O28: each request for a live item, for a number that is not live, and with a choice that is none. -/
theorem tagsAndVerdictsWriteOneFieldOfALiveItem : Obligations.TagsAndVerdictsWriteOneFieldOfALiveItem := by
  refine ⟨fun args s it live => ⟨fun hl hc => ?_, fun tag v hl hc hv => ?_, fun v hl hc hv => ?_, fun hl hc h0 => ?_⟩,
    fun args s => ⟨fun none => ?_, fun hl hc h3 => ?_, fun tag hl hc h03 => ?_⟩⟩
  · exact serves_lineOp rfl rfl hc hl (onItem_some (s := ready .line s) live _)
  · exact serves_officeOp rfl rfl hc hl (runVerdict_live (s := ready (.office tag) s) (hv ▸ verdictOf_code v) live)
  · exact serves_lineOp rfl rfl hc hl
      ((runOverride_live (s := ready .line s) (hv ▸ choiceOf_code v) live).trans (if_neg fun h => nomatch h.1))
  · refine serves_lineOp rfl rfl hc hl ((runOverride_live (s := ready .line s) (congrArg choiceOf h0) live).trans ?_)
    cases it.lineOverride <;> rfl
  · have gone := isGone_iff s.itab args 0
    refine ⟨fun hl hc => ?_, fun hl hc => ?_, fun hl hc h2 => ?_, fun tag hl hc hv => ?_⟩
    · exact serves_lineOp rfl rfl hc hl ((onItem_none (s := ready .line s) none _).trans (Prod.ext rfl (say_absentItem gone)))
    · exact serves_lineOp rfl rfl hc hl ((onItem_none (s := ready .line s) none _).trans (Prod.ext rfl (say_absentItem gone)))
    · obtain ⟨c, choice⟩ := choiceOf_le h2
      exact serves_lineOp rfl rfl hc hl
        ((runOverride_absent (s := ready .line s) choice none).trans (Prod.ext rfl (say_absentItem gone)))
    · have verdict : ∃ v, verdictOf (argNat args 3 1) = some v := by
        rcases hv with h | h <;> rw [h] <;> exact ⟨_, rfl⟩
      obtain ⟨v, hv⟩ := verdict
      exact serves_officeOp rfl rfl hc hl
        ((runVerdict_absent (s := ready (.office tag) s) hv none).trans (lateVerdict_eq (s := ready (.office tag) s) gone))
  · exact serves_lineOp rfl rfl hc hl (runOverride_out (choiceOf_none h3))
  · exact serves_officeOp rfl rfl hc hl (runVerdict_out (verdictOf_none h03))

end Sys2Proof.Machine
end

section
/-! PROOFS. Items made by declarations and by leading edges (O25). -/

namespace Sys2Proof.Machine

/-! ## Declarations -/

/-- The case of R41 that answers OUT_OF_ORDER, as the newest item gives it. -/
theorem outOfOrder_iff (t : Itab) (start : Pos) :
    (newest t).any (fun it => !aheadBy t.geometry.minGap start it.start || it.endPos.any fun e => behind start e) = true ↔
    ∃ it, t.items.getLast? = some it ∧
      (¬(t.geometry.minGap ≤ (start - it.start).toNat ∧ (start - it.start).toNat < 2 ^ 31) ∨
        ∃ e, it.endPos = some e ∧ behind start e = true) := by
  simp only [newest, Option.any_eq_true, Bool.or_eq_true, Bool.not_eq_true', ← Bool.not_eq_true, aheadBy_iff]

theorem runDeclareItem_refused {m : Master} {args : List Byte} {s : State} {r : Result}
    (h : declareRefusal s (BitVec.ofNat 32 (argNat args 0 4)) (argNat args 4 4) = some r) :
    runDeclareItem m args s = (s, say r) := by
  unfold runDeclareItem
  dsimp only
  rw [h]

theorem runDeclareItem_made {m : Master} {args : List Byte} {s : State}
    (h : declareRefusal s (BitVec.ofNat 32 (argNat args 0 4)) (argNat args 4 4) = none) :
    runDeclareItem m args s =
      let it := declaredItem s.itab (BitVec.ofNat 32 (argNat args 0 4)) (argNat args 4 4)
        (if 12 ≤ args.length then some (BitVec.ofNat 32 (argNat args 8 4)) else none)
      (createDeclared it s, sayWith .ok (itemBytes it.number)) := by
  unfold runDeclareItem
  dsimp only
  rw [h]

/-- What the local port has done before a request is checked is no matter to a declaration. -/
theorem declareRefusal_ready (s : State) (start : Pos) (length : Nat) :
    declareRefusal (ready .line s) start length = declareRefusal s start length := rfl

/-- The cases of R41 that turn a declaration away, in their order. -/
theorem declareRefusal_eq (s : State) (start : Pos) (length : Nat) : declareRefusal s start length =
    if length = 0 ∨ s.itab.geometry.maxLength < length then some .badArg
    else if newestEntering s = true then some .busy
    else if (newest s.itab).any (fun it => !aheadBy s.itab.geometry.minGap start it.start ||
      it.endPos.any fun e => behind start e) = true then some .outOfOrder
    else if passed (firstShot s start) s.posu.position = true then some .tooLate
    else if 64 ≤ s.itab.items.length then some .tableFull
    else none := rfl

/-- A declaration is refused with its case of R41, or makes the item. -/
theorem declareItem_served {args : List Byte} {s : State} (hl : 8 ≤ args.length) (hc : CanServe .line s) :
    let start := BitVec.ofNat 32 (argNat args 0 4)
    let len := argNat args 4 4
    let it := declaredItem s.itab start len (if 12 ≤ args.length then some (BitVec.ofNat 32 (argNat args 8 4)) else none)
    (∀ a, declareRefusal s start len = some a →
      Serves (.declareItem .line args) .line 0x24 args s (ready .line s) (say a)) ∧
    (declareRefusal s start len = none → Serves (.declareItem .line args) .line 0x24 args s
      (createDeclared it (ready .line s)) (0x01 :: be 3 it.number)) :=
  ⟨fun _ h => serves_lineOp rfl rfl hc hl (runDeclareItem_refused (s := ready .line s) h),
    fun h => serves_lineOp rfl rfl hc hl (runDeclareItem_made (s := ready .line s) h)⟩

/-! ## Items appended -/

/-- What an appended item leaves as it was, besides the items. -/
theorem appendItem_calm (it : Item) (s : State) : Calm (appended it s) (appendItem it s) := by
  rw [appendItem_eq]
  exact foldl_calm units (fun ch _ s => enterChannel_calm it s ch) _

/-- The numbers of the table after an item has joined it. -/
theorem appendItem_numbers (it : Item) (s : State) :
    (appendItem it s).itab.items.map (·.number) = s.itab.items.map (·.number) ++ [it.number] := by
  rw [map_eq_of_forall₂ (f := (·.number)) SameRow.number (appendItem_rows it s), List.map_append]
  rfl

/-- What an appended item leaves of the rest of ITAB and of the other units. -/
theorem appendItem_still (it : Item) (s : State) : let t := appendItem it s
    t.itab = { (appended it s).itab with items := t.itab.items } ∧ t.posu = s.posu ∧ t.capu = s.capu ∧ t.lnk = s.lnk ∧
      t.pins = s.pins ∧ t.stamp = s.stamp := by
  have calm := appendItem_calm it s
  have still := calm.still
  simp only [State.still, Prod.mk.injEq] at still
  obtain ⟨-, stamp, -, pins, posu, capu, lnk, -⟩ := still
  exact ⟨calm.itab, posu, capu, lnk, pins, stamp⟩

/-- With no channel that takes part nothing but the table changes. -/
theorem appendItem_idle {it : Item} {s : State} (h : ∀ n, takesPart (s.chan n) = false) : appendItem it s = appended it s := by
  have fixed : ∀ ch, enterChannel it (appended it s) ch = appended it s := fun ch => enterChannel_out (h ch)
  rw [appendItem_eq]
  exact List.foldl_fixed' (f := enterChannel it) (a := appended it s) fixed units

/-- An item made from an edge is retired, or ended, where the position has passed it (R35, R138). -/
theorem createFromEdge_eq {p : Pos} {s : State} {it : Item} (h : findItem (appendItem (sensorItem s.itab p) s) s.itab.nextNumber = some it) :
    createFromEdge p s =
      let t := appendItem (sensorItem s.itab p) s
      if passed it.ejectAt t.posu.position then retireItem it t
      else if passed (posPlus p t.itab.geometry.maxLength) t.posu.position then forcedEnd it t
      else t := by
  unfold createFromEdge
  dsimp only
  rw [show (sensorItem s.itab p).number = s.itab.nextNumber from rfl, h]

/-- Settles O25: a declaration by the cases of R41, and an appended item by what its channels' entries leave. -/
theorem itemsAreDeclaredAndMadeFromEdges : Obligations.ItemsAreDeclaredAndMadeFromEdges := by
  refine ⟨?_, ?_, ?_⟩
  · intro args s hl hc start len g r said
    obtain ⟨refused, made⟩ := declareItem_served hl hc
    rw [declareRefusal_eq] at refused made
    simp only [outOfOrder_iff] at refused made
    dsimp only
    generalize (if 12 ≤ args.length then some (BitVec.ofNat 32 (argNat args 8 4)) else none) = tag at made ⊢
    split_ifs at refused made ⊢
    · exact refused _ rfl
    · exact refused _ rfl
    · exact refused _ rfl
    · exact refused _ rfl
    · exact refused _ rfl
    · exact made rfl
  · intro it s number
    obtain ⟨itab, posu, capu, lnk, pins, stamp⟩ := appendItem_still it s
    refine ⟨appendItem_numbers it s, ?_, ?_, ?_, ?_, ?_, ?_, posu, capu, lnk, pins, stamp, fun idle => appendItem_idle idle⟩
    all_goals
      rw [itab]
      rfl
  · intro p s free g it
    have made : it = sensorItem s.itab p := rfl
    clear_value it
    subst made
    obtain ⟨it', found, entries, items⟩ := appendItem_items (it := sensorItem s.itab p) (s := s) free fun _ => Or.inl rfl
    obtain ⟨itab, posu, -⟩ := appendItem_still (sensorItem s.itab p) s
    have geometry : (appendItem (sensorItem s.itab p) s).itab.geometry = s.itab.geometry := by
      rw [itab]
      rfl
    refine ⟨it', found, entries, items, ?_⟩
    rw [createFromEdge_eq found]
    dsimp only
    rw [forcedEnd, posu, geometry, entries]
    rfl

end Sys2Proof.Machine
end

section
/-! PROOFS. Load, the order of a shot queue, and shots and closes scheduled (O36). -/

namespace Sys2Proof.Machine

/-! ## Lookup and entries of a live item -/

/-- The live item of a number, after items of that number have changed. -/
theorem findItem_modItem {n : Nat} {f : Item → Item} {s : State} {i : Item} (h : findItem s n = some i)
    (number : ∀ i, (f i).number = i.number) : findItem (modItem n f s) n = some (f i) := by
  have own : i.number = n := by simpa using List.find?_some h
  have same : ((fun i : Item => i.number == n) ∘ fun i => if i.number = n then f i else i) = fun i => i.number == n :=
    funext fun i => by by_cases own : i.number = n <;> simp [own, number]
  unfold findItem at h ⊢
  rw [modItem, State.setItab_itab, List.find?_map, same, h, Option.map_some, if_pos own]

theorem findItem_of_items {s t : State} (h : t.itab.items = s.itab.items) (n : Nat) : findItem t n = findItem s n := by
  unfold findItem
  rw [h]

/-- A missed shot of an entry that is PENDING (R39). -/
theorem apply_missed {it : Item} {ch : Unit8} (h : it.shots[ch] = .pending) (r : MissReason) : it.apply ch (.missed r) =
    { it with shots := it.shots.set ch (.missed r), flags := { it.flags with missedShot := true } } := by
  unfold Item.apply
  rw [h]

/-- A report leaves the entries of the other channels. -/
theorem apply_shots_other (it : Item) {ch n : Unit8} (h : n ≠ ch) (r : Report) : (it.apply ch r).shots[n] = it.shots[n] := by
  have set (e : Shot) : (it.shots.set ch e)[n] = it.shots[n] := by rw [shots_set, if_neg h.symm]
  unfold Item.apply
  split
  · exact set _
  · exact set _
  · exact set _
  · exact set _
  · exact set _
  · rfl
  · rfl

/-- A live item's entry of one channel stays as it is. -/
def EntryKept (k : Nat) (n : Unit8) (s t : State) : Prop :=
  ∀ i, findItem s k = some i → ∃ j, findItem t k = some j ∧ j.shots[n] = i.shots[n]

theorem EntryKept.of_items {k : Nat} {n : Unit8} {s t : State} (h : t.itab.items = s.itab.items) : EntryKept k n s t :=
  fun i hi => ⟨i, (findItem_of_items h k).trans hi, rfl⟩

theorem EntryKept.trans {k : Nat} {n : Unit8} {a b c : State} (h : EntryKept k n a b) (g : EntryKept k n b c) :
    EntryKept k n a c := fun i hi => by
  obtain ⟨j, hj, same⟩ := h i hi
  obtain ⟨l, hl, same'⟩ := g j hj
  exact ⟨l, hl, same'.trans same⟩

theorem modItem_entryKept {k : Nat} {n : Unit8} {f : Item → Item} (number : ∀ i, (f i).number = i.number)
    (shots : ∀ i, (f i).shots[n] = i.shots[n]) (s : State) : EntryKept k n s (modItem k f s) :=
  fun i hi => ⟨f i, findItem_modItem hi number, shots i⟩

/-! ## Shots scheduled -/

/-- A miss as an item is made leaves the table as the report made it. -/
theorem missSchedule_items (n : Unit8) (item : Nat) (r : MissReason) (s : State) :
    (missSchedule n item r s).itab = (modItem item (·.apply n (.missed r)) s).itab := by
  rw [missSchedule, setBoth_rest]
  rfl

theorem missSchedule_entryKept {n m : Unit8} (h : n ≠ m) (item : Nat) (r : MissReason) (s : State) :
    EntryKept item n s (missSchedule m item r s) := by
  have report : EntryKept item n s (modItem item (·.apply m (.missed r)) s) :=
    modItem_entryKept (fun i => apply_number i m _) (fun i => apply_shots_other i h _) s
  exact report.trans (.of_items (congrArg Itab.items (missSchedule_items m item r s)))

theorem scheduleShot_entryKept {n m : Unit8} (h : n ≠ m) (item : Nat) (pos : Pos) (kind : ShotKind) (s : State) :
    EntryKept item n s (scheduleShot m item pos kind s) := by
  rw [scheduleShot_eq]
  split
  · exact missSchedule_entryKept h item _ s
  · split
    · exact missSchedule_entryKept h item _ s
    · exact .of_items rfl

/-- A close of an item with no open window leaves the items. -/
theorem scheduleClose_table {n : Unit8} {item : Nat} {s : State} (away : ∀ w, (s.chan n).window = some w → w.item ≠ item)
    (pos : Pos) : (scheduleClose n item pos s).itab = s.itab := by
  rcases scheduleClose_cases n item pos s with ⟨w, hw, own, -⟩ | ⟨-, eq⟩
  · exact absurd own (away w hw)
  · rw [eq]
    split <;> rfl

/-- A channel is entered in its own entry alone. -/
theorem enterChannel_entryKept {it : Item} {s : State} {n m : Unit8} (h : n ≠ m)
    (away : ∀ w, (s.chan m).window = some w → w.item ≠ it.number) : EntryKept it.number n s (enterChannel it s m) := by
  have pending : EntryKept it.number n s (pendingAt it.number m s) := by
    refine modItem_entryKept (fun i => ?_) (fun i => ?_) s
    · rfl
    · dsimp only
      rw [shots_set, if_neg h.symm]
  cases part : takesPart (s.chan m) with
  | false =>
    rw [enterChannel_out part]
    exact .of_items rfl
  | true =>
    rw [enterChannel_in part]
    split
    · exact pending.trans (scheduleShot_entryKept h _ _ _ _)
    · split
      · exact pending.trans (scheduleShot_entryKept h _ _ _ _)
      · refine (pending.trans (scheduleShot_entryKept h _ _ _ _)).trans
          (.of_items (congrArg Itab.items (scheduleClose_table (fun w hw => away w ?_) _)))
        rwa [scheduleShot_window] at hw

/-! ## The channel of a new item -/

/-- The load at which a shot finds the queue full (R60). -/
def fullLoad : PortKind → Nat
  | .area => 16
  | .scan => 15

/-- The shot that a channel enters. -/
def entryKind : PortKind → ShotKind
  | .area => .areaShot
  | .scan => .windowOpen

/-- The queue with the shot of a new item, and with its close where its end is known (R41). -/
def enteredQueue (it : Item) (s : State) (n : Unit8) : List ShotEntry :=
  let entry := fun k => ({ item := it.number, pos := posPlus it.start (s.chan n).offset, kind := k } : ShotEntry)
  match (s.port n).kind, it.endPos with
  | .area, _ => placeEntry (entry .areaShot) (s.chan n).queue
  | .scan, none => placeEntry (entry .windowOpen) (s.chan n).queue
  | .scan, some e => placeEntry { item := it.number, pos := posPlus e (s.chan n).offset, kind := .windowClose }
      (placeEntry (entry .windowOpen) (s.chan n).queue)

/-- What the entry `e` and the channel `d` of a new item are, once its channel is entered (R35, R41, R60). -/
def Entered (it : Item) (s : State) (n : Unit8) (e : Shot) (d : Channel) : Prop :=
  let c := s.chan n
  let pos := it.start + BitVec.ofNat 32 c.offset
  let entry := fun k => ({ item := it.number, pos := pos, kind := k } : ShotEntry)
  let full := match (s.port n).kind with | .area => 16 | .scan => 15
  if ¬(c.plan = .item ∧ c.state = .running) then e = it.shots[n] ∧ d = c
  else if passed pos s.posu.position = true then e = .missed .tooLate ∧ d = { c with skipped := c.skipped + 1 }
  else if full ≤ load c then e = .missed .queueFull ∧ d = { c with skipped := c.skipped + 1 }
  else e = .pending ∧ d = { c with
    queue := match (s.port n).kind, it.endPos with
      | .area, _ => placeEntry (entry .areaShot) c.queue
      | .scan, none => placeEntry (entry .windowOpen) c.queue
      | .scan, some e => placeEntry
          { item := it.number, pos := e + BitVec.ofNat 32 c.offset, kind := .windowClose }
          (placeEntry (entry .windowOpen) c.queue) }

theorem entered_out {it : Item} {s : State} {n : Unit8} (h : ¬((s.chan n).plan = .item ∧ (s.chan n).state = .running)) :
    Entered it s n it.shots[n] (s.chan n) := by
  unfold Entered
  dsimp only
  rw [if_pos h]
  exact ⟨rfl, rfl⟩

/-- A channel that takes part, and how its shot is missed, if it is (R60). -/
theorem entered_in {it : Item} {s : State} {n : Unit8} (h : (s.chan n).plan = .item ∧ (s.chan n).state = .running)
    {e : Shot} {d : Channel} : Entered it s n e d ↔
      if passed (posPlus it.start (s.chan n).offset) s.posu.position = true then
        e = .missed .tooLate ∧ d = { s.chan n with skipped := (s.chan n).skipped + 1 }
      else if fullLoad (s.port n).kind ≤ load (s.chan n) then
        e = .missed .queueFull ∧ d = { s.chan n with skipped := (s.chan n).skipped + 1 }
      else e = .pending ∧ d = { s.chan n with queue := enteredQueue it s n } := by
  unfold Entered
  dsimp only
  rw [if_neg (not_not_intro h)]
  rfl

/-- A shot of the channel's kind, scheduled. -/
theorem scheduleShot_kind (k : PortKind) (n : Unit8) (item : Nat) (pos : Pos) (s : State) :
    scheduleShot n item pos (entryKind k) s =
      if passed pos s.posu.position = true then missSchedule n item .tooLate s
      else if fullLoad k ≤ load (s.chan n) then missSchedule n item .queueFull s
      else s.setChan n { s.chan n with
        queue := placeEntry { item := item, pos := pos, kind := entryKind k } (s.chan n).queue } := by
  cases k <;> rfl

/-- A close of an item that nothing in the channel names. -/
theorem scheduleClose_none {n : Unit8} {item : Nat} {s : State} (away : ∀ w, (s.chan n).window = some w → w.item ≠ item)
    (none : ∀ e ∈ (s.chan n).queue, e.item = item → e.kind ≠ .windowOpen) (pos : Pos) : scheduleClose n item pos s = s := by
  rcases scheduleClose_cases n item pos s with ⟨w, hw, own, -⟩ | ⟨-, eq⟩
  · exact absurd own (away w hw)
  · rw [eq, if_neg]
    rintro ⟨e, he, own, opens⟩
    exact none e he own opens

/-- A close of an item whose WINDOW_OPEN is in the queue (R61). -/
theorem scheduleClose_queued {n : Unit8} {item : Nat} {s : State} (away : ∀ w, (s.chan n).window = some w → w.item ≠ item)
    (opens : ∃ e ∈ (s.chan n).queue, e.item = item ∧ e.kind = .windowOpen) (pos : Pos) : scheduleClose n item pos s =
      s.setChan n { s.chan n with
        queue := placeEntry { item := item, pos := pos, kind := .windowClose } (s.chan n).queue } := by
  rcases scheduleClose_cases n item pos s with ⟨w, hw, own, -⟩ | ⟨-, eq⟩
  · exact absurd own (away w hw)
  · rw [eq, if_pos opens]

/-- The close that a channel enters behind the shot, of an item whose end is known (R41). -/
def knownClose (n : Unit8) (item : Nat) (offset : Nat) (k : PortKind) (e : Option Pos) (u : State) : State :=
  match k, e with
  | .scan, some e => scheduleClose n item (posPlus e offset) u
  | _, _ => u

theorem enterChannel_shot {it : Item} {s : State} {n : Unit8} (h : takesPart (s.chan n) = true) : enterChannel it s n =
    knownClose n it.number (s.chan n).offset (s.port n).kind it.endPos
      (scheduleShot n it.number (posPlus it.start (s.chan n).offset) (entryKind (s.port n).kind) (pendingAt it.number n s)) := by
  rw [enterChannel_in h]
  cases (s.port n).kind with
  | area => rfl
  | scan => cases it.endPos <;> rfl

/-- Where nothing in the channel names the item, and its shot was missed, there is nothing to close. -/
theorem knownClose_none {n : Unit8} {item : Nat} {s : State} (away : ∀ w, (s.chan n).window = some w → w.item ≠ item)
    (none : ∀ e ∈ (s.chan n).queue, e.item ≠ item) (offset : Nat) (k : PortKind) (e : Option Pos) :
    knownClose n item offset k e s = s := by
  unfold knownClose
  split
  · exact scheduleClose_none away (fun x hx own => absurd own (none x hx)) _
  · rfl

/-- A missed shot of a new item settles its entry, and counts in its channel. -/
theorem missSchedule_entered {n : Unit8} {item : Nat} {i : Item} {s : State} (found : findItem s item = some i)
    (pending : i.shots[n] = .pending) (r : MissReason) :
    ∃ j, findItem (missSchedule n item r s) item = some j ∧ j.shots[n] = .missed r := by
  refine ⟨i.apply n (.missed r), ?_, ?_⟩
  · rw [findItem_of_items (congrArg Itab.items (missSchedule_items n item r s))]
    exact findItem_modItem found fun i => apply_number i n _
  · rw [apply_missed pending, shots_set, if_pos rfl]

/-- The queue that a shot of the channel's kind, and a known close, leave. -/
theorem knownClose_queued {n : Unit8} {item : Nat} {s : State} (away : ∀ w, (s.chan n).window = some w → w.item ≠ item)
    (pos : Pos) (offset : Nat) (k : PortKind) (e : Option Pos) :
    let c := s.chan n
    let u := s.setChan n { c with queue := placeEntry { item := item, pos := pos, kind := entryKind k } c.queue }
    (knownClose n item offset k e u).itab = s.itab ∧ (knownClose n item offset k e u).chan n = { c with
      queue := match k, e with
        | .area, _ => placeEntry { item := item, pos := pos, kind := .areaShot } c.queue
        | .scan, none => placeEntry { item := item, pos := pos, kind := .windowOpen } c.queue
        | .scan, some e => placeEntry { item := item, pos := posPlus e offset, kind := .windowClose }
          (placeEntry { item := item, pos := pos, kind := .windowOpen } c.queue) } := by
  intro c u
  have chan : u.chan n = { c with queue := placeEntry { item := item, pos := pos, kind := entryKind k } c.queue } := by
    rw [chan_setChan, if_pos rfl]
  unfold knownClose
  cases k with
  | area => exact ⟨rfl, chan⟩
  | scan =>
    cases e with
    | none => exact ⟨rfl, chan⟩
    | some e =>
      have opens : ∃ x ∈ (u.chan n).queue, x.item = item ∧ x.kind = .windowOpen := by
        rw [chan]
        exact ⟨_, (placeEntry_perm _ _).mem_iff.2 List.mem_cons_self, rfl, rfl⟩
      have away' : ∀ w, (u.chan n).window = some w → w.item ≠ item := by
        rw [chan]
        exact away
      dsimp only
      rw [scheduleClose_queued away' opens, chan]
      exact ⟨rfl, (chan_setChan u n n _).trans (if_pos rfl)⟩

/-- A new item's channel, entered where neither the queue nor the window names the item. -/
theorem enterChannel_entered {it i : Item} {s : State} {n : Unit8} (found : findItem s it.number = some i)
    (fresh : i.shots[n] = it.shots[n]) (queue : ∀ e ∈ (s.chan n).queue, e.item ≠ it.number)
    (away : ∀ w, (s.chan n).window = some w → w.item ≠ it.number) :
    ∃ j, findItem (enterChannel it s n) it.number = some j ∧ Entered it s n j.shots[n] ((enterChannel it s n).chan n) := by
  have part : takesPart (s.chan n) = true ↔ (s.chan n).plan = .item ∧ (s.chan n).state = .running := by simp [takesPart]
  by_cases takes : (s.chan n).plan = .item ∧ (s.chan n).state = .running
  · have pending : findItem (pendingAt it.number n s) it.number = some { i with shots := i.shots.set n .pending } :=
      findItem_modItem found fun _ => rfl
    have entry : ({ i with shots := i.shots.set n .pending } : Item).shots[n] = .pending := by
      dsimp only
      rw [shots_set, if_pos rfl]
    have missed (r : MissReason) : ∃ j, findItem (knownClose n it.number (s.chan n).offset (s.port n).kind it.endPos
        (missSchedule n it.number r (pendingAt it.number n s))) it.number = some j ∧ j.shots[n] = .missed r ∧
        (knownClose n it.number (s.chan n).offset (s.port n).kind it.endPos
          (missSchedule n it.number r (pendingAt it.number n s))).chan n =
            { s.chan n with skipped := (s.chan n).skipped + 1 } := by
      have chan : (missSchedule n it.number r (pendingAt it.number n s)).chan n =
          { s.chan n with skipped := (s.chan n).skipped + 1 } := by
        rw [missSchedule_chan, if_pos rfl]
        rfl
      obtain ⟨j, hj, shot⟩ := missSchedule_entered pending entry r
      rw [knownClose_none (by rw [chan]; exact away) (by rw [chan]; exact queue)]
      exact ⟨j, hj, shot, chan⟩
    simp only [entered_in takes]
    rw [enterChannel_shot (part.2 takes), scheduleShot_kind]
    by_cases late : passed (posPlus it.start (s.chan n).offset) s.posu.position = true
    · simp only [if_pos late]
      rw [if_pos (show passed _ (pendingAt it.number n s).posu.position = true from late)]
      exact missed .tooLate
    · simp only [if_neg late]
      rw [if_neg (show ¬passed _ (pendingAt it.number n s).posu.position = true from late)]
      by_cases full : fullLoad (s.port n).kind ≤ load (s.chan n)
      · simp only [if_pos full]
        rw [if_pos (show _ ≤ load ((pendingAt it.number n s).chan n) from full)]
        exact missed .queueFull
      · simp only [if_neg full]
        rw [if_neg (show ¬_ ≤ load ((pendingAt it.number n s).chan n) from full)]
        obtain ⟨itab, chan⟩ := knownClose_queued (s := pendingAt it.number n s) away
          (posPlus it.start (s.chan n).offset) (s.chan n).offset (s.port n).kind it.endPos
        exact ⟨_, (findItem_of_items (congrArg Itab.items itab) _).trans pending, entry, chan⟩
  · have out : takesPart (s.chan n) = false := Bool.eq_false_iff.2 (mt part.1 takes)
    rw [enterChannel_out out]
    exact ⟨i, found, fresh ▸ entered_out takes⟩

/-- Operations of one unit each, in their order: up to `n`'s own operation `P` holds, and from it on `Q`. -/
theorem foldl_through {g : State → Unit8 → State} (other : ∀ u ch m, m ≠ ch → (g u ch).unit m = u.unit m)
    {P Q : State → Prop} {l : List Unit8} (hl : l.Nodup) {n : Unit8} (hn : n ∈ l) {s : State}
    (before : ∀ u, ∀ ch ∈ l, ch ≠ n → u.unit ch = s.unit ch → P u → P (g u ch))
    (own : ∀ u, u.unit n = s.unit n → P u → Q (g u n))
    (after : ∀ u, ∀ ch ∈ l, ch ≠ n → u.unit ch = s.unit ch → Q u → Q (g u ch)) (hs : P s) : Q (l.foldl g s) := by
  suffices go : ∀ u, (∀ m ∈ l, u.unit m = s.unit m) → P u → Q (l.foldl g u) from go s (fun _ _ => rfl) hs
  clear hs
  induction l with
  | nil => exact absurd hn List.not_mem_nil
  | cons ch l ih =>
    obtain ⟨fresh, tail⟩ := List.nodup_cons.1 hl
    intro u same hu
    have rest : ∀ m ∈ l, (g u ch).unit m = s.unit m := fun m hm =>
      (other u ch m fun e => fresh (e ▸ hm)).trans (same m (List.mem_cons_of_mem _ hm))
    by_cases here : n = ch
    · subst here
      rw [List.foldl_cons]
      refine foldl_own other tail (s := g u n) (fun v m hm sv hv => ?_) (own u (same n List.mem_cons_self) hu)
      exact after v m (List.mem_cons_of_mem _ hm) (fun e => fresh (e ▸ hm)) (sv.trans (rest m hm)) hv
    · exact ih tail ((List.mem_cons.1 hn).resolve_left here)
        (fun v m hm => before v m (List.mem_cons_of_mem _ hm)) (fun v m hm => after v m (List.mem_cons_of_mem _ hm)) _ rest
        (before u ch List.mem_cons_self (Ne.symm here) (same ch List.mem_cons_self) hu)

/-- What an item's channel, its port and the position say of its entry says it in every state that has them. -/
theorem entered_congr {it : Item} {s t : State} {n : Unit8} (unit : t.unit n = s.unit n) (posu : t.posu = s.posu) :
    Entered it t n = Entered it s n := by
  unfold Entered
  rw [chan_of_unit unit, port_of_unit unit, posu]

/-- A new item's entry of each channel, and the channel (R35, R41, R60). -/
theorem appendItem_entered {it : Item} {s : State} {n : Unit8} (free : ∀ i ∈ s.itab.items, i.number ≠ it.number)
    (queue : ∀ e ∈ (s.chan n).queue, e.item ≠ it.number)
    (away : ∀ m w, (s.chan m).window = some w → w.item ≠ it.number) :
    ∃ j, findItem (appendItem it s) it.number = some j ∧ Entered it s n j.shots[n] ((appendItem it s).chan n) := by
  have apart {u : State} {m : Unit8} (same : u.unit m = (appended it s).unit m) :
      ∀ w, (u.chan m).window = some w → w.item ≠ it.number := by
    rw [chan_of_unit same]
    exact away m
  rw [appendItem_eq]
  refine foldl_through (enterChannel_unit_other it) units_nodup (mem_units n)
    (P := fun u => u.posu = s.posu ∧ ∃ i, findItem u it.number = some i ∧ i.shots[n] = it.shots[n])
    (Q := fun u => ∃ j, findItem u it.number = some j ∧ Entered it s n j.shots[n] (u.chan n))
    (fun u ch _ other same hu => ?_) (fun u same hu => ?_) (fun u ch _ other same hu => ?_)
    ⟨rfl, it, findItem_appended_self free, rfl⟩
  · obtain ⟨posu, i, found, fresh⟩ := hu
    obtain ⟨j, found', shot⟩ := enterChannel_entryKept other.symm (apart same) i found
    have still := (enterChannel_calm it u ch).still
    simp only [State.still, Prod.mk.injEq] at still
    obtain ⟨-, -, -, -, posu', -⟩ := still
    exact ⟨posu'.trans posu, j, found', shot.trans fresh⟩
  · obtain ⟨posu, i, found, fresh⟩ := hu
    obtain ⟨j, found', entered⟩ := enterChannel_entered found fresh (by rw [chan_of_unit same]; exact queue) (apart same)
    rw [entered_congr (s := s) same posu] at entered
    exact ⟨j, found', entered⟩
  · obtain ⟨i, found, entered⟩ := hu
    obtain ⟨j, found', shot⟩ := enterChannel_entryKept other.symm (apart same) i found
    refine ⟨j, found', ?_⟩
    rw [shot, chan_of_unit (enterChannel_unit_other it u ch n other.symm)]
    exact entered

/-- Settles O36: the load, the order of a queue, a shot and a close scheduled, and with them a new item's channel. -/
theorem shotsAreScheduledWithinTheLoad : Obligations.ShotsAreScheduledWithinTheLoad := by
  refine ⟨fun _ _ => passed_iff, load_eq, placeEntry_split, scheduleShot_eq, fun n item pos s => ⟨fun w hw own => ?_,
    fun away => ⟨fun opens => scheduleClose_queued away opens pos, fun none => scheduleClose_none away none pos⟩⟩,
    fun it s n free queue away => appendItem_entered free queue away⟩
  rcases scheduleClose_cases n item pos s with ⟨v, hv, -, eq⟩ | ⟨away, -⟩
  · have same : v = w := Option.some.inj (hv.symm.trans hw)
    subst same
    exact ⟨fun late => eq.trans (if_pos late), fun ahead => eq.trans (if_neg (Bool.eq_false_iff.1 ahead))⟩
  · exact absurd own (away w hw)

end Sys2Proof.Machine
end

section
/-! PROOFS. Reports, completion, messages and the end of an item (O27). -/

namespace Sys2Proof.Machine

/-! ## Completion -/

/-- A list of eight, entry by entry. -/
theorem shots_all (v : Vector Shot 8) (p : Shot → Bool) : v.toList.all p = true ↔ ∀ ch : Unit8, p v[ch] = true := by
  rw [List.all_eq_true]
  refine ⟨fun h ch => h _ (Vector.mem_toList_iff.2 (Vector.getElem_mem ch.isLt)), fun h e he => ?_⟩
  obtain ⟨k, hk, rfl⟩ := List.mem_iff_getElem.1 he
  have lt : k < 8 := by simpa using hk
  rw [Vector.getElem_toList]
  exact h ⟨k, lt⟩

theorem shot_settled_iff (e : Shot) : e.settled = true ↔ e ≠ .pending ∧ ∀ h, e ≠ .fired h := by
  cases e <;> simp [Shot.settled]

/-- An item is settled by its end and its entries (R40). -/
theorem settled_iff (it : Item) : it.settled = true ↔
    it.endPos ≠ none ∧ ∀ ch : Unit8, it.shots[ch] ≠ .pending ∧ ∀ h, it.shots[ch] ≠ .fired h := by
  simp only [Item.settled, Bool.and_eq_true, shots_all, shot_settled_iff, Option.isSome_iff_ne_none]

theorem completeIfSettled_none {n : Nat} {s : State} (h : findItem s n = none) : completeIfSettled n s = s := by
  unfold completeIfSettled
  rw [h]

/-- A live item completes at the first event after which it is settled (R40). -/
theorem completeIfSettled_some {n : Nat} {s : State} {it : Item} (h : findItem s n = some it) : completeIfSettled n s =
    if it.state ≠ .complete ∧ it.settled = true then
      queueMessage 0x01 (itemReadyBody it) (modItem n (fun i => { i with state := .complete }) s)
    else s := by
  unfold completeIfSettled
  rw [h]
  simp only [Bool.and_eq_true, decide_eq_true_eq]

theorem itemReadyBody_eq {it : Item} {e : Pos} (h : it.endPos = some e) : itemReadyBody it =
    be 3 it.number ++ optTag it.tag ++ be 4 it.start.toNat ++ be 4 (e - it.start).toNat ++ [it.flags.byte] ++ it.shotList := by
  unfold itemReadyBody Item.length
  rw [h]
  rfl

/-! ## Messages -/

theorem messageRoom_iff (s : State) : messageRoom s = true ↔ s.lnk.state = .up ∧ occupancy s.fwd < 32 := by
  simp [messageRoom]

theorem queueMessage_room {s : State} (h : s.lnk.state = .up ∧ occupancy s.fwd < 32) (type : Byte) (b : List Byte) :
    queueMessage type b s = s.setFwd { s.fwd with
      control := s.fwd.control ++ [{ frames := [{ kind := .message, tag := 0, op := type, body := b }] }] } :=
  if_pos ((messageRoom_iff s).2 h)

theorem queueMessage_dropped {s : State} (h : ¬(s.lnk.state = .up ∧ occupancy s.fwd < 32)) (type : Byte) (b : List Byte) :
    queueMessage type b s = setOffice .messageLost (s.setFwd { s.fwd with
      counters := { s.fwd.counters with messagesDropped := s.fwd.counters.messagesDropped + 1 } }) :=
  if_neg (mt (messageRoom_iff s).1 h)

/-! ## Reports -/

section
variable {it : Item} {ch : Unit8} {h : Handle}

theorem apply_fired (pending : it.shots[ch] = .pending) (k : Handle) :
    it.apply ch (.fired k) = { it with shots := it.shots.set ch (.fired k) } := by
  unfold Item.apply
  rw [pending]

theorem apply_expired (fired : it.shots[ch] = .fired h) : it.apply ch .expired =
    { it with shots := it.shots.set ch (.missed .noFrame), flags := { it.flags with missedShot := true } } := by
  unfold Item.apply
  rw [fired]

theorem apply_completed (fired : it.shots[ch] = .fired h) :
    it.apply ch .completed = { it with shots := it.shots.set ch (.taken h) } := by
  unfold Item.apply
  rw [fired]

theorem apply_truncated (fired : it.shots[ch] = .fired h) : it.apply ch .truncated =
    { it with shots := it.shots.set ch (.taken h), flags := { it.flags with truncatedFrame := true } } := by
  unfold Item.apply
  rw [fired]

theorem apply_fault (fired : it.shots[ch] = .fired h) :
    it.apply ch .fault = { it with flags := { it.flags with conversionFault := true } } := by
  unfold Item.apply
  rw [fired]

/-- FIRED and MISSED find no PENDING entry (R39). -/
theorem apply_idle (other : it.shots[ch] ≠ .pending) (k : Handle) (x : MissReason) :
    it.apply ch (.fired k) = it ∧ it.apply ch (.missed x) = it := by
  unfold Item.apply
  cases e : it.shots[ch] with
  | pending => exact absurd e other
  | none => exact ⟨rfl, rfl⟩
  | fired _ => exact ⟨rfl, rfl⟩
  | taken _ => exact ⟨rfl, rfl⟩
  | missed _ => exact ⟨rfl, rfl⟩

/-- The reports of a frame find no FIRED entry (R39). -/
theorem apply_frameless (other : ∀ k, it.shots[ch] ≠ .fired k) : it.apply ch .expired = it ∧ it.apply ch .completed = it ∧
    it.apply ch .truncated = it ∧ it.apply ch .fault = it := by
  unfold Item.apply
  cases e : it.shots[ch] with
  | fired k => exact absurd e (other k)
  | none => exact ⟨rfl, rfl, rfl, rfl⟩
  | pending => exact ⟨rfl, rfl, rfl, rfl⟩
  | taken _ => exact ⟨rfl, rfl, rfl, rfl⟩
  | missed _ => exact ⟨rfl, rfl, rfl, rfl⟩

end

/-! ## Closes asked for -/

/-- From `s` to `t` no entry of a live item starts or ceases to want a close. -/
def WantsKept (s t : State) : Prop := List.Forall₂
  (fun a b : Item => b.number = a.number ∧ ∀ ch : Unit8, b.shots[ch].wantsClose = a.shots[ch].wantsClose) s.itab.items t.itab.items

theorem WantsKept.of_eq {s t : State} (h : t.itab = s.itab) : WantsKept s t := by
  unfold WantsKept
  rw [h]
  exact List.forall₂_same.2 fun _ _ => ⟨rfl, fun _ => rfl⟩

theorem WantsKept.of_bench {s t : State} (h : t.bench = s.bench) : WantsKept s t := .of_eq (congrArg Prod.fst h)

theorem WantsKept.trans {a b c : State} (h : WantsKept a b) (k : WantsKept b c) : WantsKept a c :=
  forall₂_trans (R := fun a b : Item => b.number = a.number ∧ ∀ ch : Unit8, b.shots[ch].wantsClose = a.shots[ch].wantsClose)
    (fun _ _ _ h k => ⟨k.1.trans h.1, fun ch => (k.2 ch).trans (h.2 ch)⟩) h k

theorem WantsKept.find {s t : State} (h : WantsKept s t) {n : Nat} {a : Item} (ha : findItem s n = some a) :
    ∃ b, findItem t n = some b ∧ ∀ ch : Unit8, b.shots[ch].wantsClose = a.shots[ch].wantsClose := by
  obtain ⟨b, hb, -, same⟩ := find_of_forall₂ (fun r => r.1) h ha
  exact ⟨b, hb, same⟩

theorem modItem_wants (n : Nat) {f : Item → Item}
    (h : ∀ i, (f i).number = i.number ∧ ∀ ch : Unit8, (f i).shots[ch].wantsClose = i.shots[ch].wantsClose) (s : State) :
    WantsKept s (modItem n f s) := by
  refine List.forall₂_map_right_iff.2 (List.forall₂_same.2 fun a _ => ?_)
  split
  · exact h a
  · exact ⟨rfl, fun _ => rfl⟩

theorem completeIfSettled_wants (n : Nat) (s : State) : WantsKept s (completeIfSettled n s) := by
  unfold completeIfSettled
  split
  · exact .of_eq rfl
  · split
    · refine (modItem_wants n (fun i => ?_) s).trans (.of_bench (queueMessage_bench _ _ _))
      exact ⟨rfl, fun _ => rfl⟩
    · exact .of_eq rfl

/-- A frame that ends makes a FIRED entry TAKEN, and both want a close. -/
theorem apply_end_wants (it : Item) (ch : Unit8) {r : Report} (h : r = .completed ∨ r = .truncated) (x : Unit8) :
    (it.apply ch r).shots[x].wantsClose = it.shots[x].wantsClose := by
  by_cases fired : ∃ k, it.shots[ch] = .fired k
  · obtain ⟨k, fired⟩ := fired
    have taken : (it.shots.set ch (.taken k))[x].wantsClose = it.shots[x].wantsClose := by
      rw [shots_set]
      split
      · subst x
        rw [fired]
        rfl
      · rfl
    rcases h with rfl | rfl
    · rw [apply_completed fired]
      exact taken
    · rw [apply_truncated fired]
      exact taken
  · obtain ⟨-, completed, truncated, -⟩ := apply_frameless (not_exists.1 fired)
    rcases h with rfl | rfl
    · rw [completed]
    · rw [truncated]

theorem reportEnd_wants (h : Handle) (s : State) : WantsKept s (reportEnd h s) := by
  unfold reportEnd
  split
  · exact .of_eq rfl
  · rename_i r _
    split
    · refine (modItem_wants _ (fun i => ⟨apply_number i _ _, apply_end_wants i r.port ?_⟩) s).trans
        (completeIfSettled_wants _ _)
      split
      · exact Or.inl rfl
      · exact Or.inr rfl
    · exact .of_eq rfl

theorem endRecord_wants (h : Handle) (final : RecordState) (s : State) : WantsKept s (endRecord h final s) := by
  unfold endRecord
  split
  · exact .of_eq rfl
  · extract_lets s1 _ s2
    have h2 : s2.bench = s.bench := modRecord_bench _ _ s
    clear_value s2
    exact (WantsKept.of_bench h2).trans ((reportEnd_wants h s2).trans (.of_bench
      ((applyAutoFull_bench _ _ _).trans ((handOverPull_bench _ _).trans (settlePreview_bench _ _)))))

theorem endFrame_wants (n : Unit8) (final : RecordState) (mark : FrameFlags → FrameFlags) (s : State) :
    WantsKept s (endFrame n final mark s) := by
  unfold endFrame
  split
  · exact .of_eq rfl
  · extract_lets s1 s2 s3
    have h2 : s2.bench = s.bench := (modRecord_bench _ _ _).trans (endContext_bench n s)
    clear_value s2
    have h3 : s3.bench = s2.bench := by
      change (if _ then _ else _ : State).bench = _
      split
      · exact setBoth_bench _ _
      · rfl
    exact (WantsKept.of_bench (h3.trans h2)).trans (endRecord_wants _ _ _)

theorem closeFrame_wants (n : Unit8) (w : Window) (s : State) : WantsKept s (closeFrame n w s) := by
  unfold closeFrame
  extract_lets s1
  have h1 : WantsKept s s1 := by
    change WantsKept s (if _ then _ else _)
    split
    · exact .of_bench (modRecord_bench _ _ s)
    · exact .of_eq rfl
  split
  · exact h1.trans ((endFrame_wants n _ _ s1).trans (.of_eq rfl))
  · exact h1

theorem takeClose_wants (n : Unit8) (s : State) : WantsKept s (takeClose n s) := by
  cases hw : (s.chan n).window with
  | none =>
    rw [takeClose_none hw]
    exact .of_eq rfl
  | some w =>
    have frame := closeFrame_wants n w s
    rw [takeClose_some hw, settleChannel_eq]
    generalize closeFrame n w s = u at frame ⊢
    exact frame.trans (.of_eq rfl)

theorem scheduleClose_wants (n : Unit8) (item : Nat) (pos : Pos) (s : State) : WantsKept s (scheduleClose n item pos s) := by
  rcases scheduleClose_cases n item pos s with ⟨w, -, -, eq⟩ | ⟨-, eq⟩
  · rw [eq]
    split
    · exact takeClose_wants n s
    · exact .of_eq rfl
  · rw [eq]
    split <;> exact .of_eq rfl

theorem wantsClose_iff (e : Shot) : e.wantsClose = true ↔ e = .pending ∨ ∃ h, e = .fired h ∨ e = .taken h := by
  cases e <;> simp [Shot.wantsClose]

/-- A close is asked for of a SCAN channel whose entry wants one (R37). -/
theorem askClose_some {n : Nat} {e : Pos} {s : State} {ch : Unit8} {it : Item} (h : findItem s n = some it) :
    askClose n e s ch = if (s.port ch).kind = .scan ∧ it.shots[ch].wantsClose = true then
      scheduleClose ch n (posPlus e (s.chan ch).offset) s else s := by
  unfold askClose
  rw [h]
  simp only [Bool.and_eq_true, decide_eq_true_eq]

theorem askClose_wants (n : Nat) (e : Pos) (s : State) (ch : Unit8) : WantsKept s (askClose n e s ch) := by
  unfold askClose
  split
  · exact .of_eq rfl
  · split
    · exact scheduleClose_wants _ _ _ _
    · exact .of_eq rfl

/-- The channels after the closes of an item that has ended, whose entries want the closes as the item's do. -/
theorem askCloses_chan {l : List Unit8} (hl : l.Nodup) {ch : Unit8} (mem : ch ∈ l) {n : Nat} {it : Item} {s : State}
    (found : findItem s n = some it) (e : Pos) : ((l.foldl (askClose n e) s).chan ch) =
      if (s.port ch).kind = .scan ∧ it.shots[ch].wantsClose = true then
        (scheduleClose ch n (posPlus e (s.chan ch).offset) s).chan ch
      else s.chan ch := by
  have next {u : State} {c : Unit8} (hu : u.posu = s.posu ∧ WantsKept s u) :
      (askClose n e u c).posu = s.posu ∧ WantsKept s (askClose n e u c) := by
    have still := (askClose_calm n e u c).still
    simp only [State.still, Prod.mk.injEq] at still
    obtain ⟨-, -, -, -, posu, -⟩ := still
    exact ⟨posu.trans hu.1, hu.2.trans (askClose_wants n e u c)⟩
  refine foldl_through (askClose_unit_other n e) hl mem (s := s)
    (P := fun u => u.posu = s.posu ∧ WantsKept s u) (Q := fun u => u.chan ch = _)
    (fun u c _ _ _ hu => next hu) (fun u same hu => ?_) (fun u c _ other _ hu => ?_) ⟨rfl, .of_eq rfl⟩
  · obtain ⟨posu, wants⟩ := hu
    obtain ⟨i, found', wants⟩ := wants.find found
    rw [askClose_some found', port_of_unit same, chan_of_unit same, wants ch]
    split
    · exact scheduleClose_chan_congr (chan_of_unit same) (congrArg Port.state (port_of_unit same))
        (congrArg Posu.position posu) n _
    · exact chan_of_unit same
  · rw [chan_of_unit (askClose_unit_other n e u c ch other.symm)]
    exact hu

/-- The end of a live item, read off the item and its channels (R37, R38). -/
theorem endItem_ends {n : Nat} {e : Pos} {long : Bool} {s : State} {it : Item} (found : findItem s n = some it) :
    ∃ it', findItem (endItem n e long s) n = some it' ∧ Reported (it.ended e long) it' := by
  have ended : findItem (modItem n (Item.ended e long) s) n = some (it.ended e long) := findItem_modItem found fun _ => rfl
  rw [endItem_eq]
  exact ((askCloses_items n e _).trans (completeIfSettled_kept n _).toItemsKept).find ended

theorem endItem_chan {n : Nat} {e : Pos} {long : Bool} {s : State} {it : Item} (found : findItem s n = some it)
    (ch : Unit8) : (endItem n e long s).chan ch =
      if (s.port ch).kind = .scan ∧ it.shots[ch].wantsClose = true then
        (scheduleClose ch n (posPlus e (s.chan ch).offset) s).chan ch
      else s.chan ch := by
  have ended : findItem (modItem n (Item.ended e long) s) n = some (it.ended e long) := findItem_modItem found fun _ => rfl
  rw [endItem_eq, chan_of_trgu (congrArg Prod.fst (completeIfSettled_front n _)), askCloses_chan units_nodup (mem_units ch) ended]
  have close := scheduleClose_chan_congr (s := s) (u := modItem n (Item.ended e long) s) (n := ch) rfl rfl rfl n
    (posPlus e (s.chan ch).offset)
  exact if_congr Iff.rfl close rfl

/-- Settles O27: reports by the entry they find, completion by what settles an item, and the end of an item by its closes. -/
theorem reportsSettleItemsAndEndsCompleteThem : Obligations.ReportsSettleItemsAndEndsCompleteThem := by
  refine ⟨fun it ch h k m x => ?_, fun _ _ _ _ => rfl, fun n s => ⟨completeIfSettled_none, fun it found => ?_⟩,
    fun type b s => ⟨fun up room => queueMessage_room ⟨up, room⟩ type b, fun none => queueMessage_dropped ?_ type b⟩,
    fun n e long s it found _ => ?_⟩
  · have own (e : Shot) : (it.shots.set ch e)[ch] = e := by rw [shots_set, if_pos rfl]
    have twice (e f : Shot) : (it.shots.set ch e).set ch f = it.shots.set ch f := Vector.set_set ..
    refine ⟨?_, ?_, ?_, ?_, ?_, ?_, fun other => apply_idle other k x, fun other => apply_frameless other⟩
    · exact fun _ => (apply_fired (own _) h).trans (by rw [twice])
    · exact fun _ => (apply_missed (own _) m).trans (by rw [twice])
    · exact fun _ => (apply_expired (own _)).trans (by rw [twice])
    · exact fun _ => (apply_completed (own _)).trans (by rw [twice])
    · exact fun _ => (apply_truncated (own _)).trans (by rw [twice])
    · exact fun _ => apply_fault (own _)
  · have settled := settled_iff it
    rw [completeIfSettled_some found]
    refine ⟨fun not => if_neg fun h => not.elim (absurd · h.1) (absurd (settled.1 h.2)), fun tracked done e he => ?_⟩
    rw [if_pos ⟨tracked, settled.2 done⟩, itemReadyBody_eq he]
    rfl
  · rintro ⟨up, room⟩
    exact none.elim (absurd up) (Nat.not_le.2 room)
  · obtain ⟨it', found', reported⟩ := endItem_ends (e := e) (long := long) found
    have still := (endItem_calm n e long s).still
    have table := (endItem_calm n e long s).table
    simp only [State.still, Prod.mk.injEq] at still
    simp only [State.table, Prod.mk.injEq] at table
    obtain ⟨-, -, -, -, posu, capu, lnk, -⟩ := still
    obtain ⟨-, numbers, eject⟩ := table
    have same {α : Type} (f : Item → α) := congrArg f reported.rest
    refine ⟨⟨it', found', same Item.endPos, fun entering => ?_, same Item.start, same Item.ejectAt,
      same Item.tag, same Item.officeVerdict, same Item.lineOverride, ?_⟩, fun ch => ?_, numbers, posu, capu, lnk, eject⟩
    · have tracked : ItemState.tracked = .entering := reported.row.entering entering
      cases tracked
    · rw [reported.long]
      cases long <;> rfl
    · have wants := wantsClose_iff it.shots[ch]
      rw [endItem_chan found]
      exact ⟨fun asked => if_pos (asked.imp_right wants.2), fun idle => if_neg (mt (And.imp_right wants.1) idle)⟩

end Sys2Proof.Machine
end

section
/-! PROOFS. What frames that end leave of the records and the pool; WITHDRAW_ITEM (O29). -/

namespace Sys2Proof.Machine

/-! ## Records and pool -/

/-- What neither a preview line, nor the end of a frame, nor its hand-over changes of a record. -/
def FrameRecord.core (r : FrameRecord) := (r.item, r.holders, r.copy, r.copySource, r.lines, r.fullBlocks)

/-- The same, with how the frame ended. -/
def FrameRecord.ending (r : FrameRecord) := (r.core, r.state, r.endStamp)

/-- From `s` to `t` every record stays with what `p` reads of it, and so does the pool. -/
structure RecordsKept {α : Type} (p : FrameRecord → α) (s t : State) : Prop where
  record : ∀ h f, recordAt s h = some f → ∃ f', recordAt t h = some f' ∧ p f' = p f
  pool : t.fsto.pool = s.fsto.pool

/-- The same, and so does the age list. -/
structure FstoKept {α : Type} (p : FrameRecord → α) (s t : State) : Prop extends RecordsKept p s t where
  age : t.fsto.age = s.fsto.age

section
variable {α : Type} {p : FrameRecord → α}

theorem recordAt_of_fsto {s t : State} (h : t.fsto = s.fsto) (k : Handle) : recordAt t k = recordAt s k := by
  unfold recordAt
  rw [h]

theorem FstoKept.of_fsto {s t : State} (h : t.fsto = s.fsto) : FstoKept p s t :=
  ⟨⟨fun k f hf => ⟨f, (recordAt_of_fsto h k).trans hf, rfl⟩, congrArg Fsto.pool h⟩, congrArg Fsto.age h⟩

theorem RecordsKept.of_fsto {s t : State} (h : t.fsto = s.fsto) : RecordsKept p s t := (FstoKept.of_fsto h).toRecordsKept

theorem RecordsKept.trans {a b c : State} (h : RecordsKept p a b) (k : RecordsKept p b c) : RecordsKept p a c := by
  refine ⟨fun n f hf => ?_, k.pool.trans h.pool⟩
  obtain ⟨g, hg, same⟩ := h.record n f hf
  obtain ⟨g', hg', same'⟩ := k.record n g hg
  exact ⟨g', hg', same'.trans same⟩

theorem FstoKept.trans {a b c : State} (h : FstoKept p a b) (k : FstoKept p b c) : FstoKept p a c :=
  ⟨h.toRecordsKept.trans k.toRecordsKept, k.age.trans h.age⟩

/-- `FstoKept.trans` read from the last operation back. -/
theorem FstoKept.before {a b c : State} (k : FstoKept p b c) (h : FstoKept p a b) : FstoKept p a c := h.trans k

/-- The age list and the bytes of the store are no matter to the records. -/
theorem setFsto_records {s : State} {f : Fsto} (slots : f.slots = s.fsto.slots) (pool : f.pool = s.fsto.pool) :
    RecordsKept p s (s.setFsto f) := by
  refine ⟨fun k r hr => ⟨r, ?_, rfl⟩, pool⟩
  unfold recordAt at hr ⊢
  rw [State.setFsto_fsto, slots]
  exact hr

theorem modRecord_fstoKept (h : Handle) {g : FrameRecord → FrameRecord} (hg : ∀ r, p (g r) = p r) (s : State) :
    FstoKept p s (modRecord h g s) := by
  refine ⟨⟨fun k f hf => ?_, ?_⟩, ?_⟩
  · by_cases own : k = h
    · subst own
      exact ⟨g f, recordAt_modRecord g hf, hg f⟩
    · exact ⟨f, (recordAt_modRecord_other g own).trans hf, rfl⟩
  · unfold modRecord
    split <;> rfl
  · unfold modRecord
    split <;> rfl

end

/-- What `p` reads of a record is read of what `q` reads of it. -/
theorem FstoKept.of_finer {α β : Type} {q : FrameRecord → β} {s t : State} (h : FstoKept q s t) (g : β → α) :
    FstoKept (g ∘ q) s t := by
  refine ⟨⟨fun k f hf => ?_, h.pool⟩, h.age⟩
  obtain ⟨f', hf', same⟩ := h.record k f hf
  exact ⟨f', hf', congrArg g same⟩

theorem FstoKept.core {s t : State} (h : FstoKept FrameRecord.ending s t) : FstoKept FrameRecord.core s t :=
  h.of_finer Prod.fst

/-! ## Reports and notices leave the store -/

theorem setOffice_fsto (n : Notice) (s : State) : (setOffice n s).fsto = s.fsto := by rw [setOffice_rest]

theorem setBoth_fsto (n : Notice) (s : State) : (setBoth n s).fsto = s.fsto := setOffice_fsto n (setLine n s)

theorem queueMessage_fsto (type : Byte) (b : List Byte) (s : State) : (queueMessage type b s).fsto = s.fsto := by
  unfold queueMessage
  split
  · rfl
  · exact setOffice_fsto _ _

theorem completeIfSettled_fsto (n : Nat) (s : State) : (completeIfSettled n s).fsto = s.fsto := by
  unfold completeIfSettled
  split
  · rfl
  · split
    · exact queueMessage_fsto _ _ _
    · rfl

theorem report_fsto (n : Nat) (ch : Unit8) (r : Report) (s : State) : (report n ch r s).fsto = s.fsto :=
  completeIfSettled_fsto n _

/-! ## The end of a frame -/

theorem reportEnd_fsto (h : Handle) (s : State) : (reportEnd h s).fsto = s.fsto := by
  unfold reportEnd
  split
  · rfl
  · split
    · exact report_fsto _ _ _ s
    · rfl

theorem settlePreview_fstoKept (h : Handle) (s : State) : FstoKept FrameRecord.ending s (settlePreview h s) := by
  unfold settlePreview
  split
  · exact .of_fsto rfl
  · split
    · exact FstoKept.before (modRecord_fstoKept h (fun _ => by rfl) _) (.of_fsto rfl)
    · exact modRecord_fstoKept h (fun _ => by rfl) s

theorem joinPull_fstoKept (h : Handle) (s : State) : FstoKept FrameRecord.ending s (joinPull h s) := by
  unfold joinPull
  exact FstoKept.before (modRecord_fstoKept h (fun _ => by rfl) _) (.of_fsto rfl)

theorem handOverPull_fstoKept (h : Handle) (s : State) : FstoKept FrameRecord.ending s (handOverPull h s) := by
  unfold handOverPull
  split
  · exact .of_fsto rfl
  · split
    · exact joinPull_fstoKept h s
    · exact .of_fsto rfl

theorem applyAutoFull_fstoKept (atEnd : Bool) (h : Handle) (s : State) :
    FstoKept FrameRecord.ending s (applyAutoFull atEnd h s) := by
  unfold applyAutoFull
  split
  · split
    · exact joinPull_fstoKept h s
    · exact .of_fsto (setOffice_fsto _ _)
  · exact .of_fsto rfl

/-- A record as it ends, with its end stamp. -/
def finished (h : Handle) (final : RecordState) (s : State) : State :=
  modRecord h (fun r => { r with state := final, endStamp := some s.stamp }) s

/-- The end work of a record that has ended (R123). -/
def endWork (h : Handle) (s : State) : State := applyAutoFull true h (handOverPull h (settlePreview h (reportEnd h s)))

theorem endRecord_none {h : Handle} {s : State} (none : recordAt s h = none) (final : RecordState) :
    endRecord h final s = s := by
  unfold endRecord
  rw [none]

theorem endRecord_some {h : Handle} {s : State} {r : FrameRecord} (some : recordAt s h = some r) (final : RecordState) :
    endRecord h final s = endWork h ((finished h final s).setFsto
      { (finished h final s).fsto with age := (finished h final s).fsto.age ++ [h] }) := by
  unfold endRecord
  rw [some]
  rfl

theorem endWork_fstoKept (h : Handle) (s : State) : FstoKept FrameRecord.ending s (endWork h s) :=
  (FstoKept.of_fsto (reportEnd_fsto h s)).trans ((settlePreview_fstoKept h _).trans
    ((handOverPull_fstoKept h _).trans (applyAutoFull_fstoKept true h _)))

theorem endRecord_records (h : Handle) (final : RecordState) (s : State) :
    RecordsKept FrameRecord.core s (endRecord h final s) := by
  cases rec : recordAt s h with
  | none =>
    rw [endRecord_none rec]
    exact .of_fsto rfl
  | some r =>
    rw [endRecord_some rec]
    have done : FstoKept FrameRecord.core s (finished h final s) := modRecord_fstoKept h (fun _ => by rfl) s
    generalize finished h final s = u at done ⊢
    have aged : RecordsKept FrameRecord.core u (u.setFsto { u.fsto with age := u.fsto.age ++ [h] }) := setFsto_records rfl rfl
    exact done.toRecordsKept.trans (aged.trans (endWork_fstoKept h _).core.toRecordsKept)

theorem endContext_fstoKept (n : Unit8) (s : State) : FstoKept FrameRecord.core s (endContext n s) := by
  unfold endContext
  split
  · exact .of_fsto rfl
  · extract_lets s1
    have h1 : FstoKept FrameRecord.core s s1 := by
      change FstoKept _ s (if _ then _ else _)
      split
      · unfold writePreviewLine
        split
        · exact .of_fsto rfl
        · exact FstoKept.before (modRecord_fstoKept _ (fun _ => by rfl) _) ⟨setFsto_records rfl rfl, rfl⟩
      · exact .of_fsto rfl
    exact h1.trans (.of_fsto rfl)

/-- The current frame of a port, marked, and the port without it, before its record ends. -/
theorem endFrame_records (n : Unit8) (final : RecordState) (mark : FrameFlags → FrameFlags) (s : State) :
    RecordsKept FrameRecord.core s (endFrame n final mark s) := by
  unfold endFrame
  split
  · exact .of_fsto rfl
  · extract_lets s1 s2 s3
    have h1 : FstoKept FrameRecord.core s s1 := FstoKept.before (modRecord_fstoKept _ (fun _ => by rfl) _) (endContext_fstoKept n s)
    clear_value s1
    have h2 : FstoKept FrameRecord.core s s2 := h1.trans (.of_fsto rfl)
    clear_value s2
    have h3 : FstoKept FrameRecord.core s s3 := h2.trans (.of_fsto (by
      change (if _ then _ else _ : State).fsto = _
      split
      · exact setBoth_fsto _ _
      · rfl))
    exact h3.toRecordsKept.trans (endRecord_records _ _ _)

theorem closeFrame_records (n : Unit8) (w : Window) (s : State) : RecordsKept FrameRecord.core s (closeFrame n w s) := by
  unfold closeFrame
  extract_lets s1
  have h1 : FstoKept FrameRecord.core s s1 := by
    change FstoKept _ s (if _ then _ else _)
    split
    · exact modRecord_fstoKept _ (fun _ => by rfl) s
    · exact .of_fsto rfl
  clear_value s1
  split
  · exact h1.toRecordsKept.trans ((endFrame_records n .complete id s1).trans (.of_fsto rfl))
  · exact h1.toRecordsKept

theorem takeClose_records (n : Unit8) (s : State) : RecordsKept FrameRecord.core s (takeClose n s) := by
  cases hw : (s.chan n).window with
  | none =>
    rw [takeClose_none hw]
    exact .of_fsto rfl
  | some w =>
    have frame := closeFrame_records n w s
    rw [takeClose_some hw, settleChannel_eq]
    generalize closeFrame n w s = u at frame ⊢
    exact frame.trans (.of_fsto rfl)

theorem leaveQueues_records (item : Nat) (s : State) : RecordsKept FrameRecord.core s (leaveQueues item s) := by
  have refl (s : State) : RecordsKept FrameRecord.core s s := .of_fsto rfl
  have drop (n : Unit8) (s : State) : RecordsKept FrameRecord.core s (dropEntries item n s) := by
    rw [dropEntries, settleChannel_eq]
    exact .of_fsto rfl
  exact (foldl_rel (R := RecordsKept FrameRecord.core) refl .trans units (fun n _ s => drop n s) s).trans
    (forEachFree_rel (R := RecordsKept FrameRecord.core) refl .trans (fun _ _ => .of_fsto rfl)
      (fun n _ s => takeClose_records n s) _)

/-! ## WITHDRAW_ITEM -/

/-- A verdict copy written where the record names the item and has none (R125). -/
theorem recordAt_writeCopies (item : Nat) (c : VerdictCopy) (src : VerdictSource) (hold : Bool) (s : State) (h : Handle) :
    recordAt (writeCopies item c src hold s) h = (recordAt s h).map (·.takeCopy item c src hold) := by
  unfold recordAt writeCopies
  simp only [State.setFsto_fsto, Fin.getElem_fin, Vector.getElem_map]
  split <;> rfl

/-- An item out of the table, with its copies written, once it has left the queues. -/
def takenOut (n : Nat) (u : State) : State := writeCopies n .withdrawn .line false (removeItem n u)

theorem takenOut_itab (n : Nat) (u : State) :
    (takenOut n u).itab = { u.itab with items := u.itab.items.filter fun i => i.number != n } := rfl

/-- It changes nothing of TRGU, the line side and the pool. -/
theorem takenOut_rest (n : Nat) (u : State) : (takenOut n u).trgu = u.trgu ∧ (takenOut n u).posu = u.posu ∧
    (takenOut n u).capu = u.capu ∧ (takenOut n u).lnk = u.lnk ∧ (takenOut n u).fsto.pool = u.fsto.pool :=
  ⟨rfl, rfl, rfl, rfl, rfl⟩

theorem takenOut_numbers (n : Nat) (u : State) :
    (takenOut n u).itab.items.map (·.number) = (u.itab.items.map (·.number)).filter (· ≠ n) := by
  rw [takenOut_itab, List.filter_map]
  congr 1
  refine List.filter_congr fun i _ => ?_
  by_cases own : i.number = n <;> simp [own]

/-- A record as the copies leave it. -/
theorem takenOut_record {n : Nat} {u : State} {h : Handle} {f : FrameRecord} (rec : recordAt u h = some f) :
    recordAt (takenOut n u) h = some (f.takeCopy n .withdrawn .line false) := by
  have same : recordAt (removeItem n u) h = some f := rec
  rw [takenOut, recordAt_writeCopies, same]
  rfl

/-- What a withdrawal leaves, before its message (R43). -/
def withdrawn (it : Item) (s : State) : State := takenOut it.number (leaveQueues it.number s)

/-- Of ITAB a withdrawal changes the items alone, before its message. -/
theorem withdrawn_itab (it : Item) (s : State) :
    (withdrawn it s).itab = { s.itab with items := (withdrawn it s).itab.items } := by
  have itab := (leaveQueues_calm it.number s).itab
  unfold withdrawn
  rw [takenOut_itab]
  generalize leaveQueues it.number s = u at itab ⊢
  rw [itab]

theorem withdrawn_counts (it : Item) (s : State) : let t := (withdrawn it s).itab
    t.nextNumber = s.itab.nextNumber ∧ t.assigned = s.itab.assigned ∧ t.suppression = s.itab.suppression ∧
      t.retired = s.itab.retired ∧ t.blind = s.itab.blind ∧ t.withdrawn = s.itab.withdrawn := by
  dsimp only
  rw [withdrawn_itab]
  exact ⟨rfl, rfl, rfl, rfl, rfl, rfl⟩

/-- A withdrawal takes an item out and says so (R43). -/
theorem withdraw_eq (it : Item) (s : State) : withdraw it s =
    let q := queueMessage 0x02 (itemRetiredBody it .withdrawn .line it.ejectAt s.stamp) (withdrawn it s)
    q.setItab { q.itab with withdrawn := s.itab.withdrawn + 1 } := by
  have counts := withdrawn_counts it s
  obtain ⟨-, -, -, -, -, count⟩ := counts
  unfold withdrawn takenOut at count ⊢
  unfold withdraw
  dsimp only
  generalize writeCopies it.number .withdrawn .line false (removeItem it.number (leaveQueues it.number s)) = u at count ⊢
  have bench := queueMessage_bench 0x02 (itemRetiredBody it .withdrawn .line it.ejectAt s.stamp) u
  generalize queueMessage 0x02 (itemRetiredBody it .withdrawn .line it.ejectAt s.stamp) u = q at bench ⊢
  rw [show q.itab.withdrawn = s.itab.withdrawn from (congrArg (fun x : Itab × Trgu => x.1.withdrawn) bench).trans count]

/-- The windows after an item has left the queues (R61). -/
theorem leaveQueues_window {item : Nat} {s : State} {n : Unit8} {w : Window} (h : (s.chan n).window = some w) :
    (w.item ≠ item → ((leaveQueues item s).chan n).window = some w) ∧
    (w.item = item → ((leaveQueues item s).chan n).window = w.close.map fun k => { w with close := some (k.1, .detached) }) := by
  obtain ⟨-, eq⟩ := leaveQueues_chan item s n
  rw [Channel.openEnded, h] at eq
  rw [eq]
  refine ⟨fun other => by simp [detached, other], fun own => ?_⟩
  cases close : w.close with
  | none => simp [own, close]
  | some k => simp [detached, own, close]

/-- A record after a withdrawal: with its copy where it names the item and has none. -/
theorem withdrawn_record {it : Item} {s : State} {h : Handle} {f : FrameRecord} (rec : recordAt s h = some f) :
    ∃ f', recordAt (withdrawn it s) h = some f' ∧ f'.item = f.item ∧ f'.holders = f.holders ∧
      f'.copy = (if f.item = it.number ∧ f.copy = .none then .withdrawn else f.copy) ∧
      f'.copySource = if f.item = it.number ∧ f.copy = .none then some .line else f.copySource := by
  obtain ⟨g, hg, core⟩ := (leaveQueues_records it.number s).record h f rec
  simp only [FrameRecord.core, Prod.mk.injEq] at core
  obtain ⟨item, holders, copy, source, -⟩ := core
  refine ⟨_, takenOut_record hg, ?_⟩
  unfold FrameRecord.takeCopy
  rw [← item, ← copy, ← holders, ← source]
  split <;> exact ⟨rfl, rfl, rfl, rfl⟩

/-- What a withdrawal leaves of the table, of TRGU and of the rest. -/
theorem withdrawn_rest (it : Item) (s : State) : let u := withdrawn it s
    u.itab.items.map (·.number) = (s.itab.items.map (·.number)).filter (· ≠ it.number) ∧
      u.trgu.eject = s.trgu.eject ∧ u.posu = s.posu ∧ u.capu = s.capu ∧ u.lnk = s.lnk ∧ u.fsto.pool = s.fsto.pool ∧
      ∀ n, u.chan n = (leaveQueues it.number s).chan n := by
  have still := (leaveQueues_calm it.number s).still
  have table := (leaveQueues_calm it.number s).table
  have pool := (leaveQueues_records it.number s).pool
  simp only [State.still, Prod.mk.injEq] at still
  simp only [State.table, Prod.mk.injEq] at table
  obtain ⟨-, -, -, -, posu, capu, lnk, -⟩ := still
  obtain ⟨-, numbers, eject⟩ := table
  unfold withdrawn
  generalize leaveQueues it.number s = u at posu capu lnk numbers eject pool ⊢
  rw [← numbers]
  exact ⟨takenOut_numbers _ u, eject, posu, capu, lnk, pool, fun _ => rfl⟩

/-- Settles O29: a withdrawal by the item's leaving of the queues, the table and the records. -/
theorem withdrawTakesAnItemOutOfTheTable : Obligations.WithdrawTakesAnItemOutOfTheTable := by
  intro args s it hl hc found
  have run : runWithdrawItem .line args (ready .line s) = (withdraw it (ready .line s), [0x01]) :=
    onItem_some (s := ready .line s) found _
  have served := serves_lineOp (i := .withdrawItem .line args) rfl rfl hc hl run
  obtain ⟨numbers, eject, posu, capu, lnk, pool, chan⟩ := withdrawn_rest it (ready .line s)
  obtain ⟨next, assigned, suppression, retired, blind, -⟩ := withdrawn_counts it (ready .line s)
  have queues (n : Unit8) := (leaveQueues_chan it.number (ready .line s) n).1
  have windows {n : Unit8} {w : Window} (hw : (s.chan n).window = some w) :=
    leaveQueues_window (item := it.number) (s := ready .line s) hw
  simp only [← chan] at queues windows
  have records {h : Handle} {f : FrameRecord} (rec : recordAt s h = some f) := withdrawn_record (it := it) (s := ready .line s) rec
  rw [withdraw_eq] at served
  generalize withdrawn it (ready .line s) = u at *
  exact ⟨u, served, numbers, next, assigned, suppression, retired, blind, eject, posu, capu, lnk, pool, queues,
    fun _ _ => windows, fun _ _ => records⟩

end Sys2Proof.Machine
end

section
/-! PROOFS. HALT_SOFT and HALT_HARD: the channels, the removed shots and the frame cut short (O33). -/

namespace Sys2Proof.Machine

/-! ## The channels that a halt names -/

theorem mem_namedChannels {s : State} {mask : Nat} {n : Unit8} :
    n ∈ namedChannels s mask ↔ mask.testBit n.val = true ∧ (s.chan n).state ≠ .idle := by
  simp only [namedChannels, List.mem_filter, mem_units, true_and, Bool.and_eq_true, decide_eq_true_eq]

/-- The channels named, in the order chosen. -/
def haltOrder (s : State) (mask : Nat) : List Unit8 := arrange s.orderIndex (namedChannels s mask)

theorem haltOrder_nodup (s : State) (mask : Nat) : (haltOrder s mask).Nodup :=
  (arrange_perm _ _).nodup_iff.2 (units_nodup.filter _)

theorem mem_haltOrder {s : State} {mask : Nat} {n : Unit8} :
    n ∈ haltOrder s mask ↔ mask.testBit n.val = true ∧ (s.chan n).state ≠ .idle :=
  (arrange_perm _ _).mem_iff.trans mem_namedChannels

/-! ## HALT_SOFT -/

/-- A soft halt (R68, R71). -/
theorem softHalt_eq (n : Unit8) (s : State) : softHalt n s =
    if (s.chan n).state = .running then
      if (s.chan n).queue = [] ∧ (s.chan n).window = none ∧ (s.port n).state.atRest = true then
        s.setChan n { s.chan n with state := .idle, plan := .off, freeRun := none }
      else s.setChan n { s.chan n with
        state := .halting, freeRun := if (s.chan n).plan = .item then (s.chan n).freeRun else none }
    else s := by
  unfold softHalt
  dsimp only
  refine if_congr Iff.rfl ?_ rfl
  rw [settleChannel_eq, chan_setChan, if_pos rfl, setChan_setChan, settledChan]
  dsimp only
  by_cases rest : (s.chan n).queue = [] ∧ (s.chan n).window = none ∧ (s.port n).state.atRest = true
  · rw [if_pos rest, if_pos ⟨rfl, rest⟩]
  · rw [if_neg rest, if_neg fun h => rest h.2]

/-! ## Removed shots -/

/-- The removed entries reported, one after the other. -/
theorem reportHalted_foldl (n : Unit8) (q : List ShotEntry) (s : State) : reportHalted n q s =
    q.foldl (fun u e => if e.kind = .windowClose then u
      else report e.item n (.missed .halted) (u.setChan n { u.chan n with skipped := (u.chan n).skipped + 1 })) s := by
  induction q generalizing s with
  | nil => rfl
  | cons e q ih => exact ih _

theorem reportHalted_fsto (n : Unit8) (q : List ShotEntry) (s : State) : (reportHalted n q s).fsto = s.fsto := by
  induction q generalizing s with
  | nil => rfl
  | cons e q ih =>
    rw [reportHalted, ih]
    split
    · rfl
    · exact report_fsto _ _ _ _

/-- Changes of the items of one number leave the live item of another. -/
theorem findItem_modItem_other {n k : Nat} (h : k ≠ n) {f : Item → Item} (number : ∀ i, (f i).number = i.number) (s : State) :
    findItem (modItem n f s) k = findItem s k := by
  unfold findItem modItem
  rw [State.setItab_itab, List.find?_map]
  have same : ((fun i : Item => i.number == k) ∘ fun i => if i.number = n then f i else i) = fun i => i.number == k :=
    funext fun i => by by_cases own : i.number = n <;> simp [own, number]
  rw [same]
  cases found : s.itab.items.find? fun i => i.number == k with
  | none => rfl
  | some i =>
    have own : i.number = k := by simpa using List.find?_some found
    rw [Option.map_some, if_neg (by rw [own]; exact h)]

theorem queueMessage_findItem (type : Byte) (b : List Byte) (s : State) (k : Nat) :
    findItem (queueMessage type b s) k = findItem s k :=
  findItem_of_items (congrArg (fun x : Itab × Trgu => x.1.items) (queueMessage_bench type b s)) k

theorem report_findItem_other {n k : Nat} (h : k ≠ n) (ch : Unit8) (r : Report) (s : State) :
    findItem (report n ch r s) k = findItem s k := by
  have complete (s : State) : findItem (completeIfSettled n s) k = findItem s k := by
    unfold completeIfSettled
    split
    · rfl
    · split
      · rw [queueMessage_findItem, findItem_modItem_other h fun _ => by rfl]
      · rfl
  rw [report, complete, findItem_modItem_other h fun i => apply_number i ch r]

/-- The live item of a number has its entry of channel `n` MISSED(HALTED), and MISSED_SHOT set. -/
def HaltMissed (n : Unit8) (k : Nat) (s : State) : Prop :=
  ∃ i, findItem s k = some i ∧ i.shots[n] = .missed .halted ∧ i.flags.missedShot = true

theorem HaltMissed.kept {n : Unit8} {k : Nat} {s t : State} (h : HaltMissed n k s) (kept : ItemsKept s t) : HaltMissed n k t := by
  obtain ⟨i, found, entry, flag⟩ := h
  obtain ⟨j, found', reported⟩ := kept.find found
  exact ⟨j, found', (reported.entry n (by rw [entry]; rfl)).trans entry, reported.missed flag⟩

/-- A PENDING shot reported so. -/
theorem report_haltMissed {n : Unit8} {k : Nat} {s : State} {i : Item} (found : findItem s k = some i)
    (pending : i.shots[n] = .pending) : HaltMissed n k (report k n (.missed .halted) s) := by
  refine HaltMissed.kept ?_ (completeIfSettled_kept k _).toItemsKept
  refine ⟨_, findItem_modItem found fun i => apply_number i n _, ?_⟩
  rw [apply_missed pending, shots_set, if_pos rfl]
  exact ⟨rfl, rfl⟩

/-- Each shot that a hard halt removes ends MISSED(HALTED) (R69 step 1). -/
theorem reportHalted_missed {n : Unit8} {q : List ShotEntry} {e : ShotEntry} (mem : e ∈ q) (shot : e.kind ≠ .windowClose)
    {s : State} {i : Item} (found : findItem s e.item = some i) (pending : i.shots[n] = .pending) :
    HaltMissed n e.item (reportHalted n q s) := by
  induction q generalizing s with
  | nil => exact absurd mem List.not_mem_nil
  | cons x q ih =>
    rw [reportHalted]
    by_cases own : x.item = e.item ∧ x.kind ≠ .windowClose
    · obtain ⟨item, kind⟩ := own
      rw [if_neg kind, item]
      exact (report_haltMissed (s := countSkip n s) found pending).kept (reportHalted_kept n q _).toItemsKept
    · have tail : e ∈ q := (List.mem_cons.1 mem).resolve_left fun h => own (h ▸ ⟨rfl, shot⟩)
      refine ih tail ?_
      split
      · exact found
      · rename_i kind
        have other : e.item ≠ x.item := fun h => own ⟨h.symm, kind⟩
        exact (report_findItem_other other n _ (countSkip n s)).trans found

/-! ## The frame cut short -/

theorem isFilling_eq (s : State) (h : Handle) : isFilling s h = (recordAt s h).any fun r => decide (r.state = .filling) := by
  unfold isFilling
  cases recordAt s h <;> rfl

/-- A hard halt cuts the port's frame: that of the open window while it is FILLING, or that of an AREA port that is ARMED or
RECEIVING (R69 step 3). -/
def haltCuts (n : Unit8) (s : State) : Prop :=
  match (s.chan n).window with
  | none => (s.port n).state = .armed ∨ (s.port n).state = .receiving
  | some w => (s.port n).current = some w.handle ∧
      (recordAt s w.handle).any (fun r => decide (r.state = .filling)) = true

/-- The port's state after a hard halt (R69 step 3). -/
def haltedPort (w : Option Window) (p : PortState) : PortState :=
  match w, p with
  | none, .armed => .idle
  | none, .receiving => .draining
  | some _, .receiving => .idle
  | some _, .draining => .idle
  | _, x => x

/-- The state that a hard halt leaves of `u`, with the frame cut in `v` where there is one to cut. -/
def haltLeaves (n : Unit8) (u v : State) : State :=
  (v.setPort n { v.port n with state := haltedPort (u.chan n).window (u.port n).state }).setChan n
    { v.chan n with state := .idle, plan := .off, window := none }

theorem setPort_self (n : Unit8) (s : State) : s.setPort n (s.port n) = s := by simp [State.setPort, State.port]

theorem truncateFrame_portState (n : Unit8) (r : TruncReason) (s : State) :
    ((truncateFrame n r s).port n).state = (s.port n).state := by
  rw [truncateFrame, countPort, port_modPort, if_pos rfl, endFrame_port]

/-- The window removed, the port at the state `p`, and the channel IDLE. -/
theorem close_idle (n : Unit8) (f : Port → Port) (v : State) :
    modChan n (fun c => { c with state := .idle, plan := .off }) (modPort n f (modChan n (fun c => { c with window := none }) v)) =
      (v.setPort n (f (v.port n))).setChan n { v.chan n with state := .idle, plan := .off, window := none } := by
  have commute : modPort n f (modChan n (fun c => { c with window := none }) v) =
    (v.setPort n (f (v.port n))).setChan n { v.chan n with window := none } := rfl
  rw [commute, modChan, setChan_setChan, chan_setChan, if_pos rfl]

/-- The port at the state `p` and the channel IDLE, where no window is open. -/
theorem rest_idle {n : Unit8} {v : State} (closed : (v.chan n).window = none) (f : Port → Port) :
    modChan n (fun c => { c with state := .idle, plan := .off }) (modPort n f v) =
      (v.setPort n (f (v.port n))).setChan n { v.chan n with state := .idle, plan := .off, window := none } := by
  rw [modChan, ← closed]
  rfl

theorem haltCuts_window {n : Unit8} {u : State} {w : Window} (isOpen : (u.chan n).window = some w) :
    haltCuts n u ↔ (u.port n).current = some w.handle ∧ isFilling u w.handle = true := by
  rw [haltCuts, isOpen, isFilling_eq]

theorem haltCuts_none {n : Unit8} {u : State} (closed : (u.chan n).window = none) :
    haltCuts n u ↔ (u.port n).state = .armed ∨ (u.port n).state = .receiving := by
  rw [haltCuts, closed]

theorem haltedPort_window (w : Window) (p : PortState) :
    haltedPort (some w) p = if p = .receiving ∨ p = .draining then .idle else p := by
  cases p <;> rfl

/-- The frame cut short, where there is one. -/
def frameCut (n : Unit8) (u v : State) : Prop :=
  (haltCuts n u ∧ v = truncateFrame n .halted u) ∨ (¬haltCuts n u ∧ v = u)

theorem frameCut.portState {n : Unit8} {u v : State} (h : frameCut n u v) : (v.port n).state = (u.port n).state := by
  obtain ⟨-, rfl⟩ | ⟨-, rfl⟩ := h
  · exact truncateFrame_portState _ _ _
  · rfl

theorem frameCut.chan {n : Unit8} {u v : State} (h : frameCut n u v) (m : Unit8) : v.chan m = u.chan m := by
  obtain ⟨-, rfl⟩ | ⟨-, rfl⟩ := h
  · exact chan_of_trgu (truncateFrame_trgu _ _ _) m
  · rfl

/-- Under an open window (R69 step 3). -/
theorem cutFrame_window {n : Unit8} {u : State} {w : Window} (isOpen : (u.chan n).window = some w) :
    ∃ v, frameCut n u v ∧ modChan n (fun c => { c with state := .idle, plan := .off }) (cutFrame n u) = haltLeaves n u v := by
  have leaves {v : State} (cut : frameCut n u v) :
      modChan n (fun c => { c with state := .idle, plan := .off })
        (modPort n (fun p => { p with state := if p.state = .receiving ∨ p.state = .draining then .idle else p.state })
          (modChan n (fun c => { c with window := none }) v)) = haltLeaves n u v := by
    rw [close_idle, cut.portState, haltLeaves, isOpen, haltedPort_window]
  unfold cutFrame
  rw [isOpen]
  dsimp only
  by_cases cut : haltCuts n u
  · have cuts : frameCut n u (truncateFrame n .halted u) := .inl ⟨cut, rfl⟩
    refine ⟨_, cuts, ?_⟩
    rw [← leaves cuts, if_pos (by simpa using (haltCuts_window isOpen).1 cut)]
  · have stays : frameCut n u u := .inr ⟨cut, rfl⟩
    refine ⟨_, stays, ?_⟩
    rw [← leaves stays, if_neg (by simpa [haltCuts_window isOpen] using cut)]

/-- With no window open (R69 step 3). -/
theorem cutFrame_noWindow {n : Unit8} {u : State} (closed : (u.chan n).window = none) :
    ∃ v, frameCut n u v ∧ modChan n (fun c => { c with state := .idle, plan := .off }) (cutFrame n u) = haltLeaves n u v := by
  have stays (uncut : ¬haltCuts n u) (same : haltedPort none (u.port n).state = (u.port n).state)
      (kept : cutFrame n u = u) :
      ∃ v, frameCut n u v ∧
        modChan n (fun c => { c with state := .idle, plan := .off }) (cutFrame n u) = haltLeaves n u v := by
    refine ⟨u, .inr ⟨uncut, rfl⟩, ?_⟩
    rw [kept, haltLeaves, closed, same, setPort_self, modChan, ← closed]
  have cuts {x : PortState} (cut : haltCuts n u) (same : haltedPort none (u.port n).state = x)
      (ends : cutFrame n u = modPort n (fun p => { p with state := x }) (truncateFrame n .halted u)) :
      ∃ v, frameCut n u v ∧
        modChan n (fun c => { c with state := .idle, plan := .off }) (cutFrame n u) = haltLeaves n u v := by
    have cut' : frameCut n u (truncateFrame n .halted u) := .inl ⟨cut, rfl⟩
    refine ⟨_, cut', ?_⟩
    rw [ends, rest_idle (by rw [cut'.chan, closed]), haltLeaves, closed, same]
  cases state : (u.port n).state with
  | armed =>
    exact cuts (x := .idle) (by simp [haltCuts_none closed, state]) (by rw [state]; rfl) (by simp [cutFrame, closed, state])
  | receiving =>
    exact cuts (x := .draining) (by simp [haltCuts_none closed, state]) (by rw [state]; rfl) (by simp [cutFrame, closed, state])
  | disabled | idle | draining | unlocked =>
    exact stays (by simp [haltCuts_none closed, state]) (by rw [state]; rfl) (by simp [cutFrame, closed, state])

/-- The cut, and the channel IDLE (R69). -/
theorem cutFrame_idle (n : Unit8) (u : State) :
    ∃ v, frameCut n u v ∧ modChan n (fun c => { c with state := .idle, plan := .off }) (cutFrame n u) = haltLeaves n u v := by
  cases w : (u.chan n).window with
  | none => exact cutFrame_noWindow w
  | some w' => exact cutFrame_window w

theorem finished_age (h : Handle) (final : RecordState) (s : State) : (finished h final s).fsto.age = s.fsto.age :=
  (modRecord_fstoKept (p := fun _ => ()) h (fun _ => rfl) s).age

/-- The state and the stamp of a record that ends, and the age list (R96, R122). -/
theorem endRecord_ends {h : Handle} {s : State} {f : FrameRecord} (rec : recordAt s h = some f) (final : RecordState) :
    (∃ f', recordAt (endRecord h final s) h = some f' ∧ f'.ending = (f.core, final, some s.stamp)) ∧
      (endRecord h final s).fsto.age = s.fsto.age ++ [h] := by
  rw [endRecord_some rec, ← finished_age h final s]
  have found : recordAt (finished h final s) h = some { f with state := final, endStamp := some s.stamp } :=
    recordAt_modRecord _ rec
  generalize finished h final s = u at found ⊢
  have same : recordAt (u.setFsto { u.fsto with age := u.fsto.age ++ [h] }) h = recordAt u h := by
    unfold recordAt
    rfl
  rw [← same] at found
  have age : (u.setFsto { u.fsto with age := u.fsto.age ++ [h] }).fsto.age = u.fsto.age ++ [h] := rfl
  generalize u.setFsto { u.fsto with age := u.fsto.age ++ [h] } = v at found age ⊢
  have done := endWork_fstoKept h v
  obtain ⟨f', found', same'⟩ := done.record h _ found
  exact ⟨⟨f', found', same'⟩, done.age.trans age⟩

/-- The port without its frame, its context ended and the frame's flags marked: the state in which its record ends. -/
def frameLet (n : Unit8) (h : Handle) (mark : FrameFlags → FrameFlags) (s : State) : State :=
  modPort n (fun p => { p with current := none, windowEnd := none })
    (modRecord h (fun r => { r with flags := mark r.flags }) (endContext n s))

theorem frameLet_fstoKept (n : Unit8) (h : Handle) (mark : FrameFlags → FrameFlags) (s : State) :
    FstoKept FrameRecord.core s (frameLet n h mark s) := by
  have marked : FstoKept FrameRecord.core s (modRecord h (fun r => { r with flags := mark r.flags }) (endContext n s)) :=
    FstoKept.before (modRecord_fstoKept h (fun _ => by rfl) _) (endContext_fstoKept n s)
  exact marked.trans (.of_fsto rfl)

theorem frameLet_stamp (n : Unit8) (h : Handle) (mark : FrameFlags → FrameFlags) (s : State) :
    (frameLet n h mark s).stamp = s.stamp := by
  have calm : Calm s (frameLet n h mark s) :=
    (endContext_calm n s).trans ((modRecord_calm _ _ _).trans (modPort_calm _ _ _))
  exact congrArg (·.2.1) calm.still

theorem endFrame_of_current {n : Unit8} {s : State} {h : Handle} (cur : (s.port n).current = some h) (final : RecordState)
    (mark : FrameFlags → FrameFlags) : endFrame n final mark s = endRecord h final
      (if final = .truncated .storeFull then setBoth .storeFull (frameLet n h mark s) else frameLet n h mark s) := by
  unfold endFrame
  rw [cur]
  rfl

/-- The record of a hard-halted frame (R69, R91, R96, R122). -/
theorem truncateFrame_ends {n : Unit8} {s : State} {h : Handle} {f : FrameRecord} (cur : (s.port n).current = some h)
    (rec : recordAt s h = some f) :
    (∃ f', recordAt (truncateFrame n .halted s) h = some f' ∧ f'.ending = (f.core, .truncated .halted, some s.stamp)) ∧
      (truncateFrame n .halted s).fsto.age = s.fsto.age ++ [h] := by
  have kept := frameLet_fstoKept n h (fun f => if TruncReason.halted = .long then { f with long := true } else f) s
  have stamp := frameLet_stamp n h (fun f => if TruncReason.halted = .long then { f with long := true } else f) s
  rw [truncateFrame, endFrame_of_current cur, if_neg (by decide)]
  generalize frameLet n h _ s = u at kept stamp ⊢
  obtain ⟨g, found, core⟩ := kept.record h f rec
  obtain ⟨record, age⟩ := endRecord_ends found (.truncated .halted)
  rw [core, stamp] at record
  rw [kept.age] at age
  exact ⟨record, age⟩

/-! ## HALT_HARD of one channel -/

/-- The queue removed and its shots reported, the target removed (R69 steps 1 and 2). -/
def haltReported (n : Unit8) (s : State) : State :=
  modChan n (fun c => { c with freeRun := none })
    (reportHalted n (s.chan n).queue (modChan n (fun c => { c with queue := [] }) s))

theorem haltReported_port (n m : Unit8) (s : State) : (haltReported n s).port m = s.port m :=
  reportHalted_port n m _ _

theorem haltReported_fsto (n : Unit8) (s : State) : (haltReported n s).fsto = s.fsto :=
  reportHalted_fsto n _ _

theorem haltReported_calm (n : Unit8) (s : State) : Calm s (haltReported n s) :=
  (modChan_calm _ _ s).trans ((reportHalted_calm _ _ _).trans (modChan_calm _ _ _))

theorem haltReported_window (n : Unit8) (s : State) : ((haltReported n s).chan n).window = (s.chan n).window := by
  rw [haltReported, modChan, chan_setChan, if_pos rfl, reportHalted_chan, if_pos rfl, modChan, chan_setChan, if_pos rfl]

theorem haltReported_cuts (n : Unit8) (s : State) : haltCuts n (haltReported n s) ↔ haltCuts n s := by
  unfold haltCuts
  rw [haltReported_window]
  simp only [haltReported_port, recordAt_of_fsto (haltReported_fsto n s)]

/-- A hard halt of a channel that is not IDLE (R69). -/
theorem hardHalt_cut {n : Unit8} {s : State} (busy : (s.chan n).state ≠ .idle) :
    ∃ v, ((haltCuts n s ∧ v = truncateFrame n .halted (haltReported n s)) ∨ (¬haltCuts n s ∧ v = haltReported n s)) ∧
      hardHalt n s = haltLeaves n s v := by
  have ends : hardHalt n s = modChan n (fun c => { c with state := .idle, plan := .off }) (cutFrame n (haltReported n s)) :=
    if_neg busy
  obtain ⟨v, cut, leaves⟩ := cutFrame_idle n (haltReported n s)
  rw [frameCut, haltReported_cuts] at cut
  rw [haltLeaves, haltReported_window, haltReported_port] at leaves
  exact ⟨v, cut, ends.trans leaves⟩

theorem haltLeaves_port (n : Unit8) (u v : State) :
    (haltLeaves n u v).port n = { v.port n with state := haltedPort (u.chan n).window (u.port n).state } :=
  (port_setPort v n n _).trans (if_pos rfl)

theorem haltLeaves_fsto (n : Unit8) (u v : State) : (haltLeaves n u v).fsto = v.fsto := rfl

/-- The port whose frame is cut short. -/
theorem hardHalt_port_cut {n : Unit8} {s : State} (busy : (s.chan n).state ≠ .idle) (cut : haltCuts n s) :
    (hardHalt n s).port n = { s.port n with
      state := haltedPort (s.chan n).window (s.port n).state, current := none
      windowEnd := if (s.port n).current.isSome then none else (s.port n).windowEnd
      counters := { (s.port n).counters with truncated := (s.port n).counters.truncated + 1 } } := by
  obtain ⟨v, ⟨-, rfl⟩ | ⟨uncut, -⟩, ends⟩ := hardHalt_cut busy
  · rw [ends, haltLeaves_port, truncateFrame, countPort, port_modPort, if_pos rfl, endFrame_port, haltReported_port]
  · exact absurd cut uncut

/-- The port with no frame to cut. -/
theorem hardHalt_port_uncut {n : Unit8} {s : State} (busy : (s.chan n).state ≠ .idle) (uncut : ¬haltCuts n s) :
    (hardHalt n s).port n = { s.port n with state := haltedPort (s.chan n).window (s.port n).state } ∧
      (hardHalt n s).fsto = s.fsto := by
  obtain ⟨v, ⟨cut, -⟩ | ⟨-, rfl⟩, ends⟩ := hardHalt_cut busy
  · exact absurd cut uncut
  · rw [ends, haltLeaves_port, haltReported_port, haltLeaves_fsto, haltReported_fsto]
    exact ⟨rfl, rfl⟩

/-- The record of the frame that is cut short. -/
theorem hardHalt_record {n : Unit8} {s : State} (busy : (s.chan n).state ≠ .idle) {h : Handle} {f : FrameRecord}
    (cut : haltCuts n s) (cur : (s.port n).current = some h) (rec : recordAt s h = some f) :
    ∃ f', recordAt (hardHalt n s) h = some f' ∧ f'.state = .truncated .halted ∧ f'.endStamp = some s.stamp ∧
      f'.lines = f.lines ∧ f'.fullBlocks = f.fullBlocks ∧ (hardHalt n s).fsto.age = s.fsto.age ++ [h] := by
  obtain ⟨v, ⟨-, rfl⟩ | ⟨uncut, -⟩, ends⟩ := hardHalt_cut busy
  · have stamp : (haltReported n s).stamp = s.stamp := congrArg (·.2.1) (haltReported_calm n s).still
    obtain ⟨⟨f', found, same⟩, age⟩ := truncateFrame_ends ((congrArg Port.current (haltReported_port n n s)).trans cur)
      ((recordAt_of_fsto (haltReported_fsto n s) h).trans rec)
    rw [haltReported_fsto] at age
    have fsto := haltLeaves_fsto n s (truncateFrame n .halted (haltReported n s))
    rw [← ends] at fsto
    rw [fsto, recordAt_of_fsto fsto]
    rw [stamp] at same
    simp only [FrameRecord.ending, FrameRecord.core, Prod.mk.injEq] at same
    obtain ⟨⟨-, -, -, -, lines, blocks⟩, state, ended⟩ := same
    exact ⟨f', found, state, ended, lines, blocks, age⟩
  · exact absurd cut uncut

/-- The items of the removed shots. -/
theorem hardHalt_missed {n : Unit8} {s : State} (busy : (s.chan n).state ≠ .idle) {e : ShotEntry} (mem : e ∈ (s.chan n).queue)
    (shot : e.kind ≠ .windowClose) {i : Item} (found : findItem s e.item = some i) (pending : i.shots[n] = .pending) :
    HaltMissed n e.item (hardHalt n s) := by
  have missed : HaltMissed n e.item (haltReported n s) :=
    (reportHalted_missed mem shot (s := modChan n (fun c => { c with queue := [] }) s) found pending).kept (.of_eq rfl)
  obtain ⟨v, cut, ends⟩ := hardHalt_cut busy
  rw [ends]
  refine HaltMissed.kept (s := v) ?_ (.of_eq rfl)
  obtain ⟨-, rfl⟩ | ⟨-, rfl⟩ := cut
  · exact missed.kept (truncateFrame_kept n _ _).toItemsKept
  · exact missed

/-- What a hard halt leaves. -/
theorem hardHalt_leaves (n : Unit8) (s : State) :
    (hardHalt n s).itab.items.map (·.number) = s.itab.items.map (·.number) ∧ (hardHalt n s).posu = s.posu ∧
      (hardHalt n s).capu = s.capu ∧ (hardHalt n s).trgu.eject = s.trgu.eject ∧ (hardHalt n s).lnk = s.lnk ∧
      (hardHalt n s).stamp = s.stamp ∧ (hardHalt n s).pins = s.pins := by
  obtain ⟨still, table, -⟩ := hardHalt_calm n s
  simp only [State.still, State.table, Prod.mk.injEq] at still table
  obtain ⟨-, stamp, -, pins, posu, capu, lnk, -⟩ := still
  obtain ⟨-, numbers, eject⟩ := table
  exact ⟨numbers, posu, capu, eject, lnk, stamp, pins⟩

/-! ## The halts of the named channels -/

theorem haltsServe {args : List Byte} {s : State} (hl : 1 ≤ args.length) (hc : CanServe .line s) :
    ∃ (l : List Unit8) (k : Nat), l.Nodup ∧
      (∀ n, n ∈ l ↔ (argNat args 0 1).testBit n.val = true ∧ (s.chan n).state ≠ .idle) ∧
      Serves (.haltSoft .line args) .line 0x37 args s
        (l.foldl (fun t n => softHalt n t) { ready .line s with orderIndex := s.orderIndex + k }) [0x01] ∧
      Serves (.haltHard .line args) .line 0x38 args s
        (l.foldl (fun t n => hardHalt n t) { ready .line s with orderIndex := s.orderIndex + k }) [0x01] :=
  ⟨haltOrder (ready .line s) (argNat args 0 1), (namedChannels (ready .line s) (argNat args 0 1)).length - 1,
    haltOrder_nodup _ _, fun _ => mem_haltOrder, serves_lineOp rfl rfl hc hl rfl, serves_lineOp rfl rfl hc hl rfl⟩

/-- Settles O33: each halt is a fold over the channels named, a hard halt is what it reports and then what it cuts. -/
theorem haltsActOnTheNamedChannels : Obligations.HaltsActOnTheNamedChannels := by
  refine ⟨fun _ _ hl hc => haltsServe hl hc, fun n s => softHalt_eq n s, fun n s => ⟨fun idle => if_pos idle, fun busy => ?_⟩⟩
  refine ⟨?_, ?_, hardHalt_port_cut busy, hardHalt_port_uncut busy, fun m other => ⟨?_, hardHalt_port_other other s⟩,
    fun h f cut cur rec => hardHalt_record busy cut cur rec,
    fun e mem shot i found pending => hardHalt_missed busy mem shot found pending, hardHalt_leaves n s⟩
  · obtain ⟨v, cut, ends⟩ := hardHalt_cut busy
    refine ⟨v, ?_, ends⟩
    rw [← reportHalted_foldl]
    exact cut
  · rw [hardHalt_chan, if_pos ⟨rfl, busy⟩]
  · rw [hardHalt_chan, if_neg fun h => other h.1.symm]

end Sys2Proof.Machine
end

section
/-! PROOFS. The reads that name a channel, a port, an item or a frame (O12), and the settings of TRGU (O31). -/

namespace Sys2Proof.Machine

/-! ## Requests that name a channel, a port or a frame -/

/-- A read of either master that names one of the units 0 to 7. -/
theorem serves_readUnit {i : Instr} {v : Via} {code : Byte} {args : List Byte} {s : State} {f : Unit8 → State → List Byte}
    (hrow : rowOf i = some (bothOp code 1 (readUnit f))) (hreq : i.request? = some (v, args)) (hc : CanServe v s)
    (hl : 1 ≤ args.length) {n : Unit8} (named : argNat args 0 1 = n.val) :
    Serves i v code args s (ready v s) (0x01 :: f n (ready v s)) :=
  serves_of_run _ hrow hreq rfl hc (by cases v <;> rfl) hl (by simp only [bothOp, readUnit, argUnit_some named]; rfl)

/-- The same read of a unit outside 0 to 7 is answered BAD_ARG. -/
theorem serves_readUnit_out {i : Instr} {v : Via} {code : Byte} {args : List Byte} {s : State} {f : Unit8 → State → List Byte}
    (hrow : rowOf i = some (bothOp code 1 (readUnit f))) (hreq : i.request? = some (v, args)) (hc : CanServe v s)
    (hl : 1 ≤ args.length) (out : 8 ≤ argNat args 0 1) : Serves i v code args s (ready v s) [0x03] :=
  serves_of_run _ hrow hreq rfl hc (by cases v <;> rfl) hl (by simp only [bothOp, readUnit, argUnit_none out]; rfl)

theorem onUnit_some {f : Unit8 → List Byte → State → State × Answer} {args : List Byte} {n : Unit8}
    (named : argNat args 0 1 = n.val) (m : Master) (s : State) : onUnit f m args s = f n args s := by
  simp only [onUnit, argUnit_some named]

theorem onUnit_none {f : Unit8 → List Byte → State → State × Answer} {args : List Byte} (out : 8 ≤ argNat args 0 1)
    (m : Master) (s : State) : onUnit f m args s = (s, [0x03]) := by
  simp only [onUnit, argUnit_none out]
  rfl

/-- A request refused for every unit that its argument can name is refused where it names none. -/
theorem onUnit_refused {f : Unit8 → List Byte → State → State × Answer} {args : List Byte} {m : Master} {s : State}
    (refused : ∀ n : Unit8, argNat args 0 1 = n.val → onUnit f m args s = (s, [0x03])) : onUnit f m args s = (s, [0x03]) := by
  by_cases inside : argNat args 0 1 < 8
  · exact refused ⟨_, inside⟩ rfl
  · exact onUnit_none (Nat.not_lt.1 inside) m s

theorem onFrame_some {f : Handle → FrameRecord → Master → State → State × Answer} {args : List Byte} {s : State} {r : FrameRecord}
    (rec : recordAt s (argHandle args) = some r) (m : Master) : onFrame f m args s = f (argHandle args) r m s := by
  unfold onFrame
  rw [rec]

theorem onFrame_none {f : Handle → FrameRecord → Master → State → State × Answer} {args : List Byte} {s : State}
    (rec : recordAt s (argHandle args) = none) (m : Master) : onFrame f m args s = (s, [0x09]) := by
  unfold onFrame
  rw [rec]
  rfl

/-! ## Reads -/

/-- READ_ITEM (R47), answered by what the number names. -/
theorem runReadItem_eq (m : Master) (args : List Byte) (s : State) : runReadItem m args s = (s,
    match findItem s (argNat args 0 3) with
      | some it => 0x01 :: itemSnapshot it
      | none => if isGone s.itab (argNat args 0 3) then [0x08] else [0x07]) := by
  cases found : findItem s (argNat args 0 3) with
  | some it => exact onItem_some found m
  | none => exact (onItem_none found m).trans (Prod.ext rfl (say_absentItem Iff.rfl))

/-- READ_FRAME (R132), answered by what the handle names. -/
theorem runReadFrame_eq (m : Master) (args : List Byte) (s : State) : runReadFrame m args s = (s,
    match recordAt s (argHandle args) with
      | some f => 0x01 :: frameSnapshot (argHandle args) f (s.fsto.age.contains (argHandle args)) f.eligible
      | none => [0x09]) := by
  cases rec : recordAt s (argHandle args) with
  | some r => exact onFrame_some rec m
  | none => exact onFrame_none rec m

/-- Settles O12: each read is its snapshot of what is named, or the answer for what is not. -/
theorem namedReadsSampleAndChangeNothing : Obligations.NamedReadsSampleAndChangeNothing := by
  intro v args s hc r
  have permits {code : Byte} {k : Nat} {run : Handler} : (bothOp code k run).permits (issuer v) = true := by cases v <;> rfl
  refine ⟨fun hl => ⟨fun n named => ⟨?_, ?_, ?_⟩, fun out => ⟨?_, ?_, ?_⟩⟩, fun hl => ?_, fun hl => ?_⟩
  · exact serves_readUnit (f := channelSnapshot) rfl rfl hc hl named
  · exact serves_readUnit (f := portSnapshot) rfl rfl hc hl named
  · exact serves_readUnit (f := conversionSnapshot) rfl rfl hc hl named
  · exact serves_readUnit_out (f := channelSnapshot) rfl rfl hc hl out
  · exact serves_readUnit_out (f := portSnapshot) rfl rfl hc hl out
  · exact serves_readUnit_out (f := conversionSnapshot) rfl rfl hc hl out
  · have read := runReadItem_eq (issuer v) args r
    rw [ready_findItem, ready_itab] at read
    exact serves_of_run opReadItem rfl rfl rfl hc permits hl read
  · have read := runReadFrame_eq (issuer v) args r
    rw [ready_recordAt, ready_fsto] at read
    exact serves_of_run opReadFrame rfl rfl rfl hc permits hl read

/-! ## Settings (R52, R53, R73) -/

theorem ejectClears_iff (s : State) (offset : Nat) :
    ejectClears s offset = true ↔ s.itab.geometry.maxLength + offset < s.itab.geometry.ejectDistance := by
  simp [ejectClears]

/-- SET_CHANNEL for a channel that its argument names (R52). -/
theorem runSetChannel_eq {args : List Byte} {n : Unit8} (named : argNat args 0 1 = n.val) (m : Master) (s : State) :
    runSetChannel m args s =
      if ¬(argNat args 1 4 ≤ 16777216 ∧ 1 ≤ argNat args 5 2 ∧
          s.itab.geometry.maxLength + argNat args 1 4 < s.itab.geometry.ejectDistance) then (s, [0x03])
      else if (s.chan n).state ≠ .idle ∨ (s.chan n).queue ≠ [] then (s, [0x02])
      else (s.setChan n { s.chan n with offset := argNat args 1 4, scanPitch := argNat args 5 2 }, [0x01]) := by
  have pitch : argNat args 5 2 ≤ 65535 := Nat.le_of_lt_succ (argNat_lt args 5 2)
  rw [runSetChannel, onUnit_some named]
  refine if_congr ?_ rfl (if_congr ?_ rfl rfl)
  · rw [Bool.not_eq_true', ← Bool.not_eq_true]
    exact not_congr (by simp [within, ejectClears_iff, pitch, and_assoc])
  · simp

/-- SET_PULSE for a channel and a strobe setting that its arguments name (R53). -/
theorem runSetPulse_eq {args : List Byte} {n : Unit8} (named : argNat args 0 1 = n.val) {b : Bool}
    (strobe : argNat args 3 1 = b.toNat) (m : Master) (s : State) : runSetPulse m args s =
      if 1 ≤ argNat args 1 2 ∧ 1 ≤ argNat args 6 2 then
        (s.setChan n { s.chan n with shadow := {
          width := argNat args 1 2, strobe := b, strobeDelay := argNat args 4 2, strobeWidth := argNat args 6 2 } }, [0x01])
      else (s, [0x03]) := by
  have width : argNat args 1 2 ≤ 65535 := Nat.le_of_lt_succ (argNat_lt args 1 2)
  have strobeWidth : argNat args 6 2 ≤ 65535 := Nat.le_of_lt_succ (argNat_lt args 6 2)
  rw [runSetPulse, onUnit_some named]
  simp only [strobe, boolOf_toNat]
  refine if_congr ?_ rfl rfl
  simp [within, width, strobeWidth]

theorem bool_of_lt {v : Nat} (h : v < 2) : ∃ b : Bool, v = b.toNat := by
  obtain _ | _ | v := v
  · exact ⟨false, rfl⟩
  · exact ⟨true, rfl⟩
  · omega

/-- SET_PULSE with a value outside its range (R53). -/
theorem runSetPulse_out {args : List Byte} (out : 8 ≤ argNat args 0 1 ∨ argNat args 1 2 = 0 ∨ 2 ≤ argNat args 3 1 ∨
    argNat args 6 2 = 0) (m : Master) (s : State) : runSetPulse m args s = (s, [0x03]) := by
  by_cases strobe : argNat args 3 1 < 2
  · obtain ⟨b, strobe'⟩ := bool_of_lt strobe
    exact onUnit_refused fun n named => (runSetPulse_eq named strobe' m s).trans (if_neg (by omega))
  · refine onUnit_refused fun n named => (onUnit_some named m s).trans ?_
    simp only [boolOf_none (Nat.not_lt.1 strobe)]
    rfl

/-- SET_EJECT (R73). -/
theorem runSetEject_eq (m : Master) (args : List Byte) (s : State) : runSetEject m args s =
    if 1 ≤ argNat args 0 2 then (s.setEject { s.trgu.eject with width := argNat args 0 2 }, [0x01]) else (s, [0x03]) := by
  have width : argNat args 0 2 ≤ 65535 := Nat.le_of_lt_succ (argNat_lt args 0 2)
  refine if_congr ?_ rfl rfl
  simp [within, width]

/-- Settles O31: each request writes its settings in their ranges, and otherwise is answered and changes nothing. -/
theorem channelPulseAndEjectSettings : Obligations.ChannelPulseAndEjectSettings := by
  intro args s hc r
  refine ⟨fun hl => ?_, fun hl => ?_, fun hl => ?_⟩
  · refine ⟨fun out => serves_lineOp rfl rfl hc hl ?_, fun n named offset pitch clears => ⟨fun idle empty => ?_, fun work => ?_⟩⟩
    · refine onUnit_refused fun n named => (runSetChannel_eq named _ _).trans (if_pos ?_)
      rw [ready_itab]
      omega
    · refine serves_lineOp rfl rfl hc hl ((runSetChannel_eq named _ _).trans ?_)
      rw [ready_itab, ready_chan, if_neg (not_not.2 ⟨offset, pitch, clears⟩), if_neg (by simp [idle, empty])]
    · refine serves_lineOp rfl rfl hc hl ((runSetChannel_eq named _ _).trans ?_)
      rw [ready_itab, ready_chan, if_neg (not_not.2 ⟨offset, pitch, clears⟩), if_pos work]
  · refine ⟨fun out => serves_lineOp rfl rfl hc hl (runSetPulse_out out _ _), fun n b named strobe width strobeWidth => ?_⟩
    refine serves_lineOp rfl rfl hc hl ((runSetPulse_eq named strobe _ _).trans ?_)
    rw [if_pos ⟨width, strobeWidth⟩, ready_chan]
  · refine ⟨fun zero => ?_, fun width => ?_⟩ <;> refine serves_lineOp rfl rfl hc hl ((runSetEject_eq _ _ _).trans ?_)
    · exact if_neg (by omega)
    · rw [if_pos width, ready_trgu]

end Sys2Proof.Machine
end

section
/-! PROOFS. The four plans: PLAN_ITEM, RUN_PITCH, SHOOT_COUNT and RUN_UNTIL (O32). -/

namespace Sys2Proof.Machine

/-! ## Plans in cases -/

/-- A request of LINE that its rule refuses with BAD_ARG, or with BUSY, or else carries out. -/
theorem serves_lineOp_cases {i : Instr} {code : Byte} {k : Nat} {run : Handler} {args : List Byte} {s t : State} {P Q : Prop}
    [Decidable P] [Decidable Q] (hrow : rowOf i = some (lineOp code k run)) (hreq : i.request? = some (.line, args))
    (hc : CanServe .line s) (hl : k ≤ args.length)
    (hrun : run .line args (ready .line s) =
      if P then (ready .line s, [0x03]) else if Q then (ready .line s, [0x02]) else (t, [0x01])) :
    if P then Serves i .line code args s (ready .line s) [0x03]
    else if Q then Serves i .line code args s (ready .line s) [0x02]
    else Serves i .line code args s t [0x01] := by
  split_ifs with refused busy
  · exact serves_lineOp hrow hreq hc hl (hrun.trans (if_pos refused))
  · exact serves_lineOp hrow hreq hc hl (hrun.trans ((if_neg refused).trans (if_pos busy)))
  · exact serves_lineOp hrow hreq hc hl (hrun.trans ((if_neg refused).trans (if_neg busy)))

theorem pitchOk_iff (v : Nat) : pitchOk v = true ↔ 1 ≤ v ∧ v ≤ 16777216 := within_iff

theorem freePlanOpen_iff (c : Channel) : freePlanOpen c = true ↔
    c.state = .idle ∨ (c.state = .running ∧ (c.plan = .pitch ∨ c.plan = .untilEdge)) := by
  unfold freePlanOpen
  cases c.state <;> simp

theorem auxOf_none {v : Nat} (h : 2 ≤ v) : auxOf v = none := by
  obtain _ | _ | v := v
  · omega
  · omega
  · rfl

theorem actionOf_none {v : Nat} (h : 2 ≤ v) : actionOf v = none := by
  obtain _ | _ | v := v
  · omega
  · omega
  · rfl

/-! ## PLAN_ITEM (R54) -/

theorem runPlanItem_eq {args : List Byte} {n : Unit8} (named : argNat args 0 1 = n.val) (m : Master) (s : State) :
    runPlanItem m args s =
      if s.itab.geometry.ejectDistance ≤ s.itab.geometry.maxLength + (s.chan n).offset then (s, [0x03])
      else if (s.chan n).state ≠ .idle then (s, [0x02])
      else (s.setChan n { s.chan n with state := .running, plan := .item }, [0x01]) := by
  rw [runPlanItem, onUnit_some named]
  refine if_congr ?_ rfl rfl
  rw [Bool.not_eq_true', ← Bool.not_eq_true, ejectClears_iff, Nat.not_lt]

/-! ## RUN_PITCH and RUN_UNTIL (R55, R57) -/

/-- The plans that run freely, started or replaced. -/
theorem startFreePlan_eq (n : Unit8) (pitch : Nat) (plan : Plan) (stopOn : Option (AuxInput × UntilAction)) (s : State) :
    startFreePlan n pitch plan stopOn s =
      if (s.port n).kind = .scan then (s, [0x03])
      else if ¬((s.chan n).state = .idle ∨
          ((s.chan n).state = .running ∧ ((s.chan n).plan = .pitch ∨ (s.chan n).plan = .untilEdge))) then (s, [0x02])
      else (s.setChan n { s.chan n with
        state := .running, plan := plan, freeRun := some (freshTarget (s.chan n) s.posu.position pitch stopOn) }, [0x01]) := by
  refine if_congr Iff.rfl rfl (if_congr ?_ rfl rfl)
  rw [Bool.not_eq_true', ← Bool.not_eq_true, freePlanOpen_iff]

theorem runRunPitch_in {args : List Byte} {n : Unit8} (named : argNat args 0 1 = n.val) (low : 1 ≤ argNat args 1 4)
    (high : argNat args 1 4 ≤ 16777216) (m : Master) (s : State) :
    runRunPitch m args s = startFreePlan n (argNat args 1 4) .pitch none s :=
  (onUnit_some named m s).trans (if_neg (by simp [(pitchOk_iff _).2 ⟨low, high⟩]))

theorem runRunPitch_out {args : List Byte} (out : 8 ≤ argNat args 0 1 ∨ argNat args 1 4 = 0 ∨ 16777216 < argNat args 1 4)
    (m : Master) (s : State) : runRunPitch m args s = (s, [0x03]) := by
  refine onUnit_refused fun n named => (onUnit_some named m s).trans (if_pos ?_)
  rw [Bool.not_eq_true', ← Bool.not_eq_true, pitchOk_iff]
  omega

theorem runRunUntil_in {args : List Byte} {n : Unit8} {i : AuxInput} {a : UntilAction} (named : argNat args 0 1 = n.val)
    (low : 1 ≤ argNat args 1 4) (high : argNat args 1 4 ≤ 16777216) (input : auxOf (argNat args 5 1) = some i)
    (action : actionOf (argNat args 6 1) = some a) (m : Master) (s : State) :
    runRunUntil m args s = startFreePlan n (argNat args 1 4) .untilEdge (some (i, a)) s := by
  rw [runRunUntil, onUnit_some named]
  simp only [input, action]
  exact if_neg (by simp [(pitchOk_iff _).2 ⟨low, high⟩])

theorem runRunUntil_out {args : List Byte} (out : 8 ≤ argNat args 0 1 ∨ argNat args 1 4 = 0 ∨ 16777216 < argNat args 1 4 ∨
    2 ≤ argNat args 5 1 ∨ 2 ≤ argNat args 6 1) (m : Master) (s : State) : runRunUntil m args s = (s, [0x03]) := by
  refine onUnit_refused fun n named => (onUnit_some named m s).trans ?_
  split
  · rename_i input action
    have inputs : ¬2 ≤ argNat args 5 1 := fun h => by simp [auxOf_none h] at input
    have actions : ¬2 ≤ argNat args 6 1 := fun h => by simp [actionOf_none h] at action
    refine if_pos ?_
    rw [Bool.not_eq_true', ← Bool.not_eq_true, pitchOk_iff]
    omega
  · rfl

/-! ## SHOOT_COUNT (R56) -/

theorem shootArgs_iff (args : List Byte) : (within 1 65535 (argNat args 1 2) && pitchOk (argNat args 3 4)) = true ↔
    1 ≤ argNat args 1 2 ∧ 1 ≤ argNat args 3 4 ∧ argNat args 3 4 ≤ 16777216 := by
  have count : argNat args 1 2 ≤ 65535 := Nat.le_of_lt_succ (argNat_lt args 1 2)
  rw [Bool.and_eq_true, within_iff, pitchOk_iff]
  omega

theorem runShootCount_in {args : List Byte} {n : Unit8} (named : argNat args 0 1 = n.val) (count : 1 ≤ argNat args 1 2)
    (low : 1 ≤ argNat args 3 4) (high : argNat args 3 4 ≤ 16777216) (m : Master) (s : State) : runShootCount m args s =
      if (s.port n).kind = .scan then (s, [0x03])
      else if (s.chan n).state ≠ .idle then (s, [0x02])
      else (s.setChan n { s.chan n with
        state := .running, plan := .count
        freeRun := some { next := s.posu.position + BitVec.ofNat 32 (argNat args 3 4), pitch := argNat args 3 4
                          remaining := some (argNat args 1 2) } }, [0x01]) :=
  (onUnit_some named m s).trans (if_neg (by rw [(shootArgs_iff args).2 ⟨count, low, high⟩]; decide))

theorem runShootCount_out {args : List Byte} (out : 8 ≤ argNat args 0 1 ∨ argNat args 1 2 = 0 ∨ argNat args 3 4 = 0 ∨
    16777216 < argNat args 3 4) (m : Master) (s : State) : runShootCount m args s = (s, [0x03]) := by
  refine onUnit_refused fun n named => (onUnit_some named m s).trans (if_pos ?_)
  rw [Bool.not_eq_true', ← Bool.not_eq_true, shootArgs_iff]
  omega

/-- Settles O32: each plan by the cases of its rule. -/
theorem plansStartByTheirRules : Obligations.PlansStartByTheirRules := by
  intro args s hc r
  refine ⟨fun hl out => serves_lineOp rfl rfl hc hl (onUnit_none out _ _),
    fun hl out => serves_lineOp rfl rfl hc hl (runRunPitch_out out _ _),
    fun hl out => serves_lineOp rfl rfl hc hl (runShootCount_out out _ _),
    fun hl out => serves_lineOp rfl rfl hc hl (runRunUntil_out out _ _), fun n named => ?_⟩
  refine ⟨fun hl => ?_, fun hl low high => ?_, fun hl count low high => ?_, fun i a hl low high input action => ?_⟩
  · exact serves_lineOp_cases rfl rfl hc hl (runPlanItem_eq named _ r)
  · exact serves_lineOp_cases rfl rfl hc hl ((runRunPitch_in named low high _ r).trans (startFreePlan_eq _ _ _ _ _))
  · exact serves_lineOp_cases rfl rfl hc hl (runShootCount_in named count low high _ r)
  · exact serves_lineOp_cases rfl rfl hc hl ((runRunUntil_in named low high input action _ r).trans (startFreePlan_eq _ _ _ _ _))

end Sys2Proof.Machine
end

section
/-! PROOFS. The output pulses and their ends (O34). -/

namespace Sys2Proof.Machine

/-- The clock carried forward leaves the channels and the eject timer. -/
theorem reachTime_trgu (t : Stamp) (s : State) : (reachTime t s).trgu = s.trgu := by
  unfold reachTime elapse
  split
  · rfl
  · split <;> rfl

theorem reachTime_chan (t : Stamp) (s : State) (n : Unit8) : (reachTime t s).chan n = s.chan n :=
  chan_of_trgu (reachTime_trgu t s) n

/-! ## Pulses started -/

theorem startPulse_eq (n : Unit8) (s : State) : startPulse n s = s.setChan n { s.chan n with
    trigger := some (s.stamp + BitVec.ofNat 48 (s.chan n).active.width)
    strobe := if (s.chan n).active.strobe = false then (s.chan n).strobe
      else if (s.chan n).active.strobeDelay = 0 then .high (s.stamp + BitVec.ofNat 48 (s.chan n).active.strobeWidth)
      else .delaying (s.stamp + BitVec.ofNat 48 (s.chan n).active.strobeDelay) (s.chan n).active.strobeWidth } := by
  have swap (b : Bool) (x y : Strobe) : (if b = false then y else x) = if b = true then x else y := by cases b <;> rfl
  rw [swap]
  rfl

/-! ## Pulses ended -/

theorem takeEjectEnd_idle {s : State} (h : s.trgu.eject.upTo = none ∨ inReset s = true) : takeEjectEnd s = s := by
  unfold takeEjectEnd
  split
  · rfl
  · rename_i running
    rcases h with low | reset
    · rw [low] at running
      cases running
    · exact if_pos reset

theorem takeEjectEnd_running {s : State} (run : inReset s = false) {t : Stamp} (high : s.trgu.eject.upTo = some t) :
    takeEjectEnd s = (reachTime t s).setEject { s.trgu.eject with upTo := none } := by
  unfold takeEjectEnd
  simp only [high, run, Bool.false_eq_true, if_false, reachTime_trgu]

theorem takeTriggerEnd_idle {n : Unit8} {s : State} (h : (s.chan n).trigger = none ∨ inReset s = true) :
    takeTriggerEnd n s = s := by
  unfold takeTriggerEnd
  split
  · rfl
  · rename_i running
    rcases h with low | reset
    · rw [low] at running
      cases running
    · exact if_pos reset

theorem takeTriggerEnd_running {n : Unit8} {s : State} (run : inReset s = false) {t : Stamp}
    (high : (s.chan n).trigger = some t) :
    takeTriggerEnd n s = (reachTime t s).setChan n { s.chan n with trigger := none } := by
  unfold takeTriggerEnd modChan
  simp only [high, run, Bool.false_eq_true, if_false, reachTime_chan]

theorem takeStrobeDelayEnd_idle {n : Unit8} {s : State} (h : (∀ t w, (s.chan n).strobe ≠ .delaying t w) ∨ inReset s = true) :
    takeStrobeDelayEnd n s = s := by
  unfold takeStrobeDelayEnd
  split
  · rename_i running
    rcases h with low | reset
    · exact absurd running (low _ _)
    · exact if_pos reset
  · rfl
  · rfl

theorem takeStrobeDelayEnd_running {n : Unit8} {s : State} (run : inReset s = false) {t : Stamp} {w : Nat}
    (delay : (s.chan n).strobe = .delaying t w) : takeStrobeDelayEnd n s =
      (reachTime t s).setChan n { s.chan n with strobe := .high (t + BitVec.ofNat 48 w) } := by
  unfold takeStrobeDelayEnd modChan
  simp only [delay, run, Bool.false_eq_true, if_false, reachTime_chan]
  rfl

theorem takeStrobeEnd_idle {n : Unit8} {s : State} (h : (∀ t, (s.chan n).strobe ≠ .high t) ∨ inReset s = true) :
    takeStrobeEnd n s = s := by
  unfold takeStrobeEnd
  split
  · rename_i running
    rcases h with low | reset
    · exact absurd running (low _)
    · exact if_pos reset
  · rfl
  · rfl

theorem takeStrobeEnd_running {n : Unit8} {s : State} (run : inReset s = false) {t : Stamp}
    (high : (s.chan n).strobe = .high t) :
    takeStrobeEnd n s = (reachTime t s).setChan n { s.chan n with strobe := .low } := by
  unfold takeStrobeEnd modChan
  simp only [high, run, Bool.false_eq_true, if_false, reachTime_chan]

/-! ## The events -/

theorem exec_ejectPulseEnd (s : State) : exec .ejectPulseEnd s = .next (takeEjectEnd s) := rfl
theorem exec_triggerPulseEnd (n : Unit8) (s : State) : exec (.triggerPulseEnd n) s = .next (takeTriggerEnd n s) := rfl
theorem exec_strobeDelayEnd (n : Unit8) (s : State) : exec (.strobeDelayEnd n) s = .next (takeStrobeDelayEnd n s) := rfl
theorem exec_strobePulseEnd (n : Unit8) (s : State) : exec (.strobePulseEnd n) s = .next (takeStrobeEnd n s) := rfl

/-- Settles O34: how each pulse starts, and how the event of its timer ends it or finds it idle. -/
theorem pulsesLastForTheirWidths : Obligations.PulsesLastForTheirWidths := by
  intro n s c
  rw [exec_ejectPulseEnd, exec_triggerPulseEnd, exec_strobeDelayEnd, exec_strobePulseEnd]
  refine ⟨startPulse_eq n s, rfl, fun reset => ?_, fun low => ?_, fun low => ?_, fun low => ?_, fun low => ?_,
    fun run t w => ⟨fun high => ?_, fun high => ?_, fun delay => ?_, fun high => ?_⟩⟩
  · rw [takeEjectEnd_idle (.inr reset), takeTriggerEnd_idle (.inr reset), takeStrobeDelayEnd_idle (.inr reset),
      takeStrobeEnd_idle (.inr reset)]
    exact ⟨rfl, rfl, rfl, rfl⟩
  · rw [takeEjectEnd_idle (.inl low)]
  · rw [takeTriggerEnd_idle (.inl low)]
  · rw [takeStrobeDelayEnd_idle (.inl low)]
  · rw [takeStrobeEnd_idle (.inl low)]
  · rw [takeEjectEnd_running run high]
  · rw [takeTriggerEnd_running run high]
  · rw [takeStrobeDelayEnd_running run delay]
  · rw [takeStrobeEnd_running run high]

end Sys2Proof.Machine
end

section
/-! PROOFS. Records asked for by a channel, and AREA shots at their position (O35). -/

namespace Sys2Proof.Machine

/-! ## The fire stage (R62, R119, R120) -/

/-- The record that a shot of channel `n` asks for (R99, R119). -/
def shotRecord (n : Unit8) (item : Nat) (pos : Pos) (state : RecordState) (s : State) : FrameRecord where
  port := n
  item := item
  state := state
  shotPosition := pos
  fireStamp := s.stamp
  format := (s.packer n).conversion.format
  preview := if (s.packer n).previewOn then some (s.packer n).previewFactor else none
  width := (s.port n).width

/-- Slot `i` takes a new record: it is the lowest free one, and `t` is `s`; or `t` is `s` with the oldest eligible record evicted
from it (R120). -/
def RoomFor (s : State) (i : Fin 512) (t : State) : Prop :=
  (freeSlot s = some i ∧ t = s) ∨ ∃ old, freeSlot s = none ∧ oldestEligible s = some old ∧ i = old.slot ∧ t = evict old s

/-- The handle of the next record in slot `i`. -/
def slotHandle (t : State) (i : Fin 512) : Handle := { slot := i, gen := t.fsto.slots[i].gen }

/-- The state with a record in slot `i`, at the slot's generation. -/
def withRecord (i : Fin 512) (r : FrameRecord) (t : State) : State :=
  t.setSlot i { gen := t.fsto.slots[i].gen, record := some r }

/-- The state of a record request that finds no room (R120). -/
def recordShort (s : State) : State :=
  setBoth .storeFull (s.setFsto { s.fsto with recordShortages := s.fsto.recordShortages + 1 })

/-- An eviction moves neither the clock nor the ports and packers, so the new record is the one asked for. -/
theorem shotRecord_evict (n : Unit8) (item : Nat) (pos : Pos) (state : RecordState) (old : Handle) (s : State) :
    shotRecord n item pos state (evict old s) = shotRecord n item pos state s := by
  have stamp : (evict old s).stamp = s.stamp := congrArg (·.2.1) (evict_calm old s).still
  have front := evict_front old s
  have packer : (evict old s).packer n = s.packer n := congrArg (fun x : Trgu × Vector Port 8 × Vector Packer 8 => x.2.2[n]) front
  unfold shotRecord
  rw [stamp, packer, port_of_front front]

/-- A port that is not IDLE refuses the shot, and no record is asked for (R62). -/
theorem requestShot_refused {n : Unit8} {s : State} {r : MissReason} (refused : portRefusal (s.port n).state = some r)
    (item : Nat) (pos : Pos) (filling : Bool) : requestShot n item pos filling s = (.error r, s) := by
  unfold requestShot
  rw [refused]

/-- A store with neither a free slot nor an eligible record gives none (R120). -/
theorem requestShot_full {n : Unit8} {s : State} (idle : (s.port n).state = .idle) (free : freeSlot s = none)
    (old : oldestEligible s = none) (item : Nat) (pos : Pos) (filling : Bool) :
    requestShot n item pos filling s = (.error .storeFull, recordShort s) := by
  have short : allocRecord n item pos filling s = (none, recordShort s) := by
    unfold allocRecord
    rw [free, old]
    rfl
  unfold requestShot
  simp only [idle, portRefusal, short]

/-- A store with room gives the record (R119, R120). -/
theorem requestShot_placed {n : Unit8} {s t : State} {i : Fin 512} (idle : (s.port n).state = .idle) (room : RoomFor s i t)
    (item : Nat) (pos : Pos) (filling : Bool) : requestShot n item pos filling s =
      (.ok (slotHandle t i), withRecord i (shotRecord n item pos (if filling then .filling else .expected) s) t) := by
  have placed : allocRecord n item pos filling s = (some (slotHandle t i),
      withRecord i (shotRecord n item pos (if filling then .filling else .expected) s) t) := by
    unfold allocRecord
    obtain ⟨free, rfl⟩ | ⟨old, full, eligible, rfl, rfl⟩ := room
    · rw [free]
      rfl
    · rw [full, eligible, ← shotRecord_evict _ _ _ _ old]
      rfl
  unfold requestShot
  simp only [idle, portRefusal, placed]

/-! ## AREA shots (R62, R81) -/

theorem takeAreaShot_missed {n : Unit8} {item : Nat} {pos : Pos} {s t : State} {r : MissReason}
    (request : requestShot n item pos false s = (.error r, t)) : takeAreaShot n item pos s = missShot n item r t := by
  unfold takeAreaShot
  rw [request]

theorem takeAreaShot_fired {n : Unit8} {item : Nat} {pos : Pos} {s t : State} {h : Handle}
    (request : requestShot n item pos false s = (.ok h, t)) :
    takeAreaShot n item pos s = report item n (.fired h) (fireArea n h t) := by
  unfold takeAreaShot
  rw [request]

theorem portRefusal_lost {p : PortState} (h : p = .disabled ∨ p = .unlocked) : portRefusal p = some .cameraLost := by
  obtain rfl | rfl := h <;> rfl

theorem portRefusal_busy {p : PortState} (h : p = .armed ∨ p = .receiving ∨ p = .draining) :
    portRefusal p = some .cameraBusy := by
  obtain rfl | rfl | rfl := h <;> rfl

/-- The port of an AREA pulse (R81). -/
theorem fireArea_port (n : Unit8) (h : Handle) (s : State) : (fireArea n h s).port n = { s.port n with
    state := .armed, current := some h
    windowEnd := some (s.stamp + BitVec.ofNat 48 ((s.port n).frameWindow * 100)) } :=
  (port_modPort _ _ _ _).trans (if_pos rfl)

/-- Settles O35: what the fire stage answers, and the pulse where it gives a record. -/
theorem shotsFireOrMissByTheirPort : Obligations.ShotsFireOrMissByTheirPort := by
  intro n item pos s miss
  refine ⟨fun lost => takeAreaShot_missed (requestShot_refused (portRefusal_lost lost) _ _ _),
    fun busy => takeAreaShot_missed (requestShot_refused (portRefusal_busy busy) _ _ _),
    fun idle => ⟨fun free old => takeAreaShot_missed (requestShot_full idle free old _ _ _), fun i t room => ?_⟩,
    fun h => ⟨fireArea_port n h s, rfl, rfl, rfl, rfl, rfl⟩⟩
  exact takeAreaShot_fired (requestShot_placed idle room _ _ _)

end Sys2Proof.Machine
end

section
/-! PROOFS. What a count event does on a channel: heads of the queue, loose targets, rest (O38). -/

namespace Sys2Proof.Machine

/-! ## Heads of a shot queue (R62) -/

/-- An entry taken adds none to the queue. -/
theorem takeEntry_queue (n : Unit8) (e : ShotEntry) (s : State) :
    ((takeEntry n e s).chan n).queue.Sublist (s.chan n).queue := by
  unfold takeEntry
  cases e.kind with
  | areaShot => exact ((takeAreaShot_kept n e.item e.pos s).queues n).queue
  | windowOpen =>
    obtain kept | ⟨-, same, -⟩ := takeOpen_chan n n e.item e.pos s
    · exact kept.queue
    · exact same ▸ List.Sublist.refl _
  | windowClose => exact ((takeClose_kept n s).queues n).queue

theorem takeHeads_stop {n : Unit8} {p : Pos} {s : State} (other : ∀ e, (s.chan n).queue.head? = some e → e.pos ≠ p) (k : Nat) :
    takeHeads n p k s = s := by
  cases k with
  | zero => rfl
  | succ k =>
    unfold takeHeads
    cases q : (s.chan n).queue with
    | nil => rfl
    | cons e l => exact if_neg (other e (by rw [q]; rfl))

theorem takeHeads_next {n : Unit8} {p : Pos} {s : State} {e : ShotEntry} {l : List ShotEntry} (q : (s.chan n).queue = e :: l)
    (here : e.pos = p) (k : Nat) :
    takeHeads n p (k + 1) s = takeHeads n p k (takeEntry n e (s.setChan n { s.chan n with queue := l })) := by
  rw [takeHeads, q]
  exact if_pos here

/-- As many turns as the queue has entries take every head at the position. -/
theorem takeHeads_done {n : Unit8} {p : Pos} {k : Nat} {s : State} (enough : (s.chan n).queue.length ≤ k) {e : ShotEntry}
    (head : ((takeHeads n p k s).chan n).queue.head? = some e) : e.pos ≠ p := by
  induction k generalizing s with
  | zero =>
    have empty : (s.chan n).queue = [] := List.eq_nil_of_length_eq_zero (Nat.le_zero.1 enough)
    rw [takeHeads, empty] at head
    cases head
  | succ k ih =>
    cases q : (s.chan n).queue with
    | nil =>
      rw [takeHeads_stop (by simp [q]), q] at head
      cases head
    | cons x l =>
      by_cases here : x.pos = p
      · rw [takeHeads_next q here] at head
        refine ih ?_ head
        have fewer := (takeEntry_queue n x (s.setChan n { s.chan n with queue := l })).length_le
        rw [State.chan_setChan] at fewer
        rw [q] at enough
        exact fewer.trans (Nat.le_of_succ_le_succ enough)
      · rw [takeHeads_stop (by simp [q, here]), q] at head
        cases head
        exact here

/-- A close that the window holds outside the queue (R65). -/
theorem heldCloseAt_eq (c : Channel) (p : Pos) :
    heldCloseAt c p = (c.window.bind (·.close)).any fun k => decide (k.1 = p ∧ k.2 ≠ .queued) := by
  unfold heldCloseAt
  cases c.window with
  | none => rfl
  | some w =>
    cases close : w.close with
    | none => simp [close]
    | some k => simp [close]

/-! ## Rest (R71) -/

theorem settleChannel_ite (n : Unit8) (s : State) : settleChannel n s =
    if (s.chan n).state = .halting ∧ (s.chan n).queue = [] ∧ (s.chan n).window = none ∧ (s.port n).state.atRest = true then
      s.setChan n { s.chan n with state := .idle, plan := .off, freeRun := none }
    else s := by
  refine if_congr ?_ rfl rfl
  simp only [Bool.and_eq_true, decide_eq_true_eq, List.isEmpty_iff, Option.isNone_iff_eq_none, and_assoc]

theorem settleChannel_busy {n : Unit8} {s : State} (busy : (s.chan n).state ≠ .halting) : settleChannel n s = s := by
  rw [settleChannel_ite, if_neg fun h => busy h.1]

/-! ## Loose targets (R58) -/

/-- The target at a position it has reached: that one is the last, the next lies a pitch on, and a COUNT falls by one. -/
def FreeRun.reached (t : FreeRun) (p : Pos) : FreeRun :=
  { t with last := some p, next := p + BitVec.ofNat 32 t.pitch, remaining := t.remaining.map (· - 1) }

/-- The target of channel `n` moved on. -/
def targetTaken (n : Unit8) (p : Pos) (t : FreeRun) (s : State) : State :=
  s.setChan n { s.chan n with freeRun := some (t.reached p) }

/-- A channel whose COUNT is spent is HALTING, and may come to rest at once (R56, R71). -/
def afterTarget (n : Unit8) (left : Option Nat) (u : State) : State :=
  if left = some 0 then settleChannel n (u.setChan n { u.chan n with state := .halting }) else u

theorem takeLooseTarget_idle {n : Unit8} {p : Pos} {s : State}
    (idle : ∀ t, (s.chan n).freeRun = some t → (s.chan n).state = .running → t.next ≠ p) : takeLooseTarget n p s = s := by
  unfold takeLooseTarget
  cases free : (s.chan n).freeRun with
  | none => rfl
  | some t =>
    refine if_neg ?_
    rw [Bool.and_eq_true, decide_eq_true_eq, decide_eq_true_eq]
    exact fun ⟨running, next⟩ => idle t free running next

/-- The shot of a loose target, with the target moved on (R58). -/
def looseShot (n : Unit8) (p : Pos) (s : State) : State :=
  if (s.port n).kind = .scan then countSkip n s
  else
    match requestShot n 0 p false s with
    | (.error _, s2) => countSkip n s2
    | (.ok h, s2) => fireArea n h s2

/-- A loose target of a RUNNING channel whose shot leaves it RUNNING. -/
theorem takeLooseTarget_shot {n : Unit8} {p : Pos} {s u : State} {t : FreeRun} (free : (s.chan n).freeRun = some t)
    (running : (s.chan n).state = .running) (here : t.next = p) (shot : looseShot n p (targetTaken n p t s) = u)
    (still : (u.chan n).state = .running) : takeLooseTarget n p s = afterTarget n (t.remaining.map (· - 1)) u := by
  have taken : takeLooseTarget n p s = settleChannel n (if t.remaining.map (· - 1) = some 0 then
      modChan n (fun c => { c with state := .halting }) (looseShot n p (targetTaken n p t s))
      else looseShot n p (targetTaken n p t s)) := by
    unfold takeLooseTarget
    rw [free]
    exact if_pos (by rw [running, here]; simp)
  rw [taken, shot, afterTarget]
  split
  · rfl
  · exact settleChannel_busy (by rw [still]; decide)

theorem looseShot_scan {n : Unit8} {s : State} (scan : (s.port n).kind = .scan) (p : Pos) :
    looseShot n p s = countSkip n s := if_pos scan

theorem looseShot_missed {n : Unit8} {p : Pos} {s t : State} {r : MissReason} (area : (s.port n).kind ≠ .scan)
    (request : requestShot n 0 p false s = (.error r, t)) : looseShot n p s = countSkip n t := by
  unfold looseShot
  rw [if_neg area, request]

theorem looseShot_fired {n : Unit8} {p : Pos} {s t : State} {h : Handle} (area : (s.port n).kind ≠ .scan)
    (request : requestShot n 0 p false s = (.ok h, t)) : looseShot n p s = fireArea n h t := by
  unfold looseShot
  rw [if_neg area, request]

/-- A port that is not IDLE refuses every shot (R62). -/
theorem portRefusal_some {p : PortState} (busy : p ≠ .idle) : ∃ r, portRefusal p = some r := by
  cases p with
  | idle => exact absurd rfl busy
  | disabled | unlocked | armed | receiving | draining => exact ⟨_, rfl⟩

/-- A loose target that misses at the port: it is counted skipped, and nothing else (R58). -/
theorem looseShot_refused {n : Unit8} {s : State} (refused : (s.port n).kind = .scan ∨ (s.port n).state ≠ .idle) (p : Pos) :
    looseShot n p s = countSkip n s := by
  by_cases scan : (s.port n).kind = .scan
  · exact looseShot_scan scan p
  · obtain ⟨r, refusal⟩ := portRefusal_some (refused.resolve_left scan)
    exact looseShot_missed scan (requestShot_refused refusal _ _ _)

theorem recordShort_chan (s : State) (n : Unit8) : (recordShort s).chan n = s.chan n :=
  chan_of_trgu (congrArg Prod.fst (setBoth_front _ _)) n

theorem evict_chan (old : Handle) (s : State) (n : Unit8) : (evict old s).chan n = s.chan n :=
  chan_of_trgu (congrArg Prod.fst (evict_front old s)) n

theorem RoomFor.chan {s t : State} {i : Fin 512} (room : RoomFor s i t) (n : Unit8) : t.chan n = s.chan n := by
  obtain ⟨-, rfl⟩ | ⟨old, -, -, -, rfl⟩ := room
  · rfl
  · exact evict_chan old s n

theorem fireArea_state (n : Unit8) (h : Handle) (s : State) : ((fireArea n h s).chan n).state = (s.chan n).state := by
  change ((startPulse n (loadShadow n s)).chan n).state = _
  rw [startPulse_eq, State.chan_setChan, loadShadow, chan_modChan, if_pos rfl]

/-- Settles O38: the order of a count's work, the heads of the queue, rest, and the cases of a loose target. -/
theorem channelsTakeWhatACountReaches : Obligations.ChannelsTakeWhatACountReaches := by
  refine ⟨fun n p k s => ⟨fun other => takeHeads_stop other k, fun e l q here => ?_, fun e head => takeHeads_done le_rfl head, ?_⟩,
    settleChannel_ite, fun n p s => ⟨takeLooseTarget_idle, fun t free running here => ?_⟩⟩
  · rw [takeHeads_next q here, ← here]
    rfl
  · rw [← heldCloseAt_eq]
    rfl
  · intro left c1 s1 done skip
    have own : s1.chan n = c1 := State.chan_setChan s n c1
    have skipped {u : State} (same : u.chan n = c1) (shot : looseShot n p s1 = countSkip n u) : takeLooseTarget n p s = skip u := by
      have counted : countSkip n u = u.setChan n { c1 with skipped := (s.chan n).skipped + 1 } := by
        rw [countSkip, modChan, same]
      refine takeLooseTarget_shot free running here (shot.trans counted) ?_
      rw [State.chan_setChan]
      exact running
    refine ⟨fun refused => skipped own (looseShot_refused (s := s1) refused p), fun area idle => ?_⟩
    have area' : (s1.port n).kind ≠ .scan := fun scan => nomatch area.symm.trans scan
    refine ⟨fun full old => ?_, fun i u room => ?_⟩
    · exact skipped ((recordShort_chan s1 n).trans own)
        (looseShot_missed area' (requestShot_full (s := s1) idle full old _ _ _))
    · have room' : RoomFor s1 i u := room
      have shot := looseShot_fired area' (requestShot_placed (s := s1) idle room' 0 p false)
      refine takeLooseTarget_shot free running here shot ?_
      rw [fireArea_state]
      exact (congrArg Channel.state ((room'.chan n).trans own)).trans running

end Sys2Proof.Machine
end

section
/-! PROOFS. ENABLE_PORT, DISABLE_PORT and RESET_PORT (O40). -/

namespace Sys2Proof.Machine

/-! ## ENABLE_PORT and DISABLE_PORT (R79, R80) -/

/-- A port that comes to rest reports it to its channel (R71, R76). -/
theorem settleAs_rest {p : PortState} (rest : p.atRest = true) (n : Unit8) (s : State) : settleAs n p s =
    if (s.chan n).state = .halting ∧ (s.chan n).queue = [] ∧ (s.chan n).window = none then
      (s.setPort n { s.port n with state := p }).setChan n { s.chan n with state := .idle, plan := .off, freeRun := none }
    else s.setPort n { s.port n with state := p } := by
  have port : (s.setPort n { s.port n with state := p }).port n = { s.port n with state := p } := State.port_setPort s n _
  refine (settleChannel_ite n (s.setPort n { s.port n with state := p })).trans ?_
  rw [port, State.chan_setPort]
  exact if_congr (by simp [rest]) rfl rfl

theorem runEnablePort_disabled {args : List Byte} {n : Unit8} (named : argNat args 0 1 = n.val) {s : State}
    (disabled : (s.port n).state = .disabled) (m : Master) :
    runEnablePort m args s = (settleAs n (if s.pins.lock[n] = true then .idle else .unlocked) s, [0x01]) :=
  (onUnit_some named m s).trans (if_neg (not_not.2 disabled))

theorem runEnablePort_busy {args : List Byte} {n : Unit8} (named : argNat args 0 1 = n.val) {s : State}
    (busy : (s.port n).state ≠ .disabled) (m : Master) : runEnablePort m args s = (s, [0x02]) :=
  (onUnit_some named m s).trans (if_pos busy)

theorem runDisablePort_idle {args : List Byte} {n : Unit8} (named : argNat args 0 1 = n.val) {s : State}
    (idle : (s.port n).state = .idle) (m : Master) : runDisablePort m args s = (settleAs n .disabled s, [0x01]) :=
  (onUnit_some named m s).trans (if_neg (not_not.2 idle))

theorem runDisablePort_busy {args : List Byte} {n : Unit8} (named : argNat args 0 1 = n.val) {s : State}
    (busy : (s.port n).state ≠ .idle) (m : Master) : runDisablePort m args s = (s, [0x02]) :=
  (onUnit_some named m s).trans (if_pos busy)

/-! ## RESET_PORT (R75, R96) -/

/-- The channel after RESET_PORT, from what the hard halt leaves of it (R75). -/
def resetChan (c : Channel) : Channel := { c with fired := 0, skipped := 0, untilMark := none }

/-- The port after RESET_PORT, from what the hard halt leaves of it (R96). -/
def resetPortTo (st : PortState) (p : Port) : Port := { p with counters := {}, lastCounter := none, state := st }

theorem hardHalted_idle (c : Channel) : (hardHalted c).state = .idle := by
  unfold hardHalted
  split
  · assumption
  · rfl

/-- RESET_PORT is the hard halt, with the channel's and the port's counts cleared: the channel, IDLE by then, does not settle. -/
theorem resetPort_eq (n : Unit8) (s : State) : resetPort n s =
    ((hardHalt n s).setChan n (resetChan ((hardHalt n s).chan n))).setPort n
      (resetPortTo (restState (s.port n).state (s.locked n)) ((hardHalt n s).port n)) := by
  have settle : resetPort n s = settleChannel n (((hardHalt n s).setChan n (resetChan ((hardHalt n s).chan n))).setPort n
      (resetPortTo (restState (s.port n).state (s.locked n)) ((hardHalt n s).port n))) := by
    unfold resetPort settleAs
    refine congrArg (settleChannel n) ?_
    unfold modPort
    rw [State.port_setPort, setPort_setPort]
    rfl
  rw [settle]
  refine settleChannel_busy ?_
  rw [State.chan_setPort, State.chan_setChan, hardHalt_chan_eq, if_pos rfl]
  exact fun halting => nomatch (hardHalted_idle (s.chan n)).symm.trans halting

/-- The settings of a port (section 4.1). -/
def Port.settings (p : Port) := (p.kind, p.width, p.lines, p.depth, p.frameWindow)

theorem hardHalt_portSettings (n : Unit8) (s : State) : ((hardHalt n s).port n).settings = (s.port n).settings := by
  by_cases idle : (s.chan n).state = .idle
  · rw [show hardHalt n s = s from if_pos idle]
  · by_cases cut : haltCuts n s
    · rw [hardHalt_port_cut idle cut]
      rfl
    · rw [(hardHalt_port_uncut idle cut).1]
      rfl

/-- The offsets, pulses and outputs of a channel (R53, R66). -/
def Channel.fixed (c : Channel) := (c.offset, c.scanPitch, c.active, c.shadow, c.trigger, c.strobe)

theorem hardHalted_fixed (c : Channel) : (hardHalted c).fixed = c.fixed := by
  unfold hardHalted
  split <;> rfl

theorem hardHalted_busy {c : Channel} (busy : c.state ≠ .idle) :
    (hardHalted c).plan = .off ∧ (hardHalted c).queue = [] ∧ (hardHalted c).freeRun = none ∧ (hardHalted c).window = none := by
  rw [hardHalted, if_neg busy]
  exact ⟨rfl, rfl, rfl, rfl⟩

theorem resetPort_port (n : Unit8) (s : State) : (resetPort n s).port n =
    resetPortTo (restState (s.port n).state (s.locked n)) ((hardHalt n s).port n) := by
  rw [resetPort_eq, State.port_setPort]

theorem resetPort_chan (n : Unit8) (s : State) : (resetPort n s).chan n = resetChan (hardHalted (s.chan n)) := by
  rw [resetPort_eq, State.chan_setPort, State.chan_setChan, hardHalt_chan_eq, if_pos rfl]

/-- RESET_PORT leaves the other ports and channels. -/
theorem resetPort_other {n m : Unit8} (other : m ≠ n) (s : State) :
    (resetPort n s).port m = s.port m ∧ (resetPort n s).chan m = s.chan m := by
  rw [resetPort_eq, State.port_setPort_ne _ _ other.symm, State.port_setChan, State.chan_setPort,
    State.chan_setChan_ne _ _ other.symm, hardHalt_port_other other, hardHalt_chan_eq, if_neg other.symm]
  exact ⟨rfl, rfl⟩

/-- Settles O40: the three requests by the port's state, and RESET_PORT read off the hard halt. -/
theorem portsAreEnabledDisabledAndReset : Obligations.PortsAreEnabledDisabledAndReset := by
  intro args s hl hc r
  refine ⟨fun tag hc' => ⟨serves_lineOp_office rfl rfl hc', serves_lineOp_office rfl rfl hc'⟩,
    fun out => ⟨serves_lineOp rfl rfl hc hl (onUnit_none out _ _), serves_lineOp rfl rfl hc hl (onUnit_none out _ _),
      serves_lineOp rfl rfl hc hl (onUnit_none out _ _)⟩, fun n named => ?_⟩
  intro c rested
  refine ⟨fun disabled => ?_, fun busy => ?_, fun idle => ?_, fun busy => ?_, ?_⟩
  · refine serves_lineOp rfl rfl hc hl ((runEnablePort_disabled (s := r) named disabled _).trans ?_)
    rw [settleAs_rest (by split <;> rfl)]
    rfl
  · exact serves_lineOp rfl rfl hc hl (runEnablePort_busy (s := r) named busy _)
  · refine serves_lineOp rfl rfl hc hl ((runDisablePort_idle (s := r) named idle _).trans ?_)
    rw [settleAs_rest rfl]
    rfl
  · exact serves_lineOp rfl rfl hc hl (runDisablePort_busy (s := r) named busy _)
  · intro h t
    have reset : resetPort n r = t := resetPort_eq n r
    have port : t.port n = resetPortTo (restState (s.port n).state (s.locked n)) (h.port n) := reset ▸ resetPort_port n r
    have chan : t.chan n = resetChan (hardHalted c) := reset ▸ resetPort_chan n r
    have other {m : Unit8} (other : m ≠ n) : t.port m = s.port m ∧ t.chan m = s.chan m := reset ▸ resetPort_other other r
    have settings := hardHalt_portSettings n r
    have fixed := hardHalted_fixed c
    simp only [Port.settings, Channel.fixed, Prod.mk.injEq] at settings fixed
    obtain ⟨kind, width, lines, depth, window⟩ := settings
    obtain ⟨offset, pitch, active, shadow, trigger, strobe⟩ := fixed
    obtain ⟨-, posu, capu, eject, lnk, -⟩ := hardHalt_leaves n r
    refine ⟨serves_lineOp rfl rfl hc hl ((onUnit_some named _ _).trans (Prod.ext reset rfl)), ?_⟩
    rw [port, chan]
    exact ⟨rfl, rfl, rfl, kind, width, lines, depth, window, hardHalted_idle c, rfl, rfl, rfl, hardHalted_busy, offset, pitch,
      active, shadow, trigger, strobe, fun m => other, posu, capu, eject, lnk⟩

end Sys2Proof.Machine
end

section
/-! PROOFS. SCAN windows: the open, line triggers, the close, and the lines awaited (O37). -/

namespace Sys2Proof.Machine

/-! ## The open (R63, R92) -/

/-- The queue of a channel without the close of an item. -/
def withoutClose (item : Nat) (c : Channel) : Channel :=
  { c with queue := c.queue.filter fun e => !(decide (e.item = item) && decide (e.kind = .windowClose)) }

theorem takeOpen_missed {n : Unit8} {item : Nat} {pos : Pos} {s t : State} {r : MissReason}
    (request : requestShot n item pos true s = (.error r, t)) (same : t.chan n = s.chan n) :
    takeOpen n item pos s = missShot n item r (t.setChan n (withoutClose item (s.chan n))) := by
  unfold takeOpen
  rw [request, ← same]
  rfl

/-- The port of a SCAN frame that starts (R92). -/
def Port.started (h : Handle) (p : Port) : Port :=
  { p with state := .receiving, current := some h, counters := { p.counters with started := p.counters.started + 1 } }

/-- The state in which a window's packer begins its context: the shadow copied, the port RECEIVING. -/
def windowStarted (n : Unit8) (h : Handle) (s : State) : State := modPort n (Port.started h) (loadShadow n s)

/-- The window that a WINDOW_OPEN makes, with its item's close in the queue copied (R63). -/
def openedWindow (item : Nat) (h : Handle) (pos : Pos) (q : List ShotEntry) : Window where
  item := item
  handle := h
  nextLine := pos
  close := (queuedClose item q).map fun e => (e.pos, .queued)

theorem takeOpen_opened {n : Unit8} {item : Nat} {pos : Pos} {s t : State} {h : Handle}
    (request : requestShot n item pos true s = (.ok h, t)) : takeOpen n item pos s =
      modChan n (fun c => { c with window := some (openedWindow item h pos c.queue) })
        (report item n (.fired h) (beginContext n h (windowStarted n h t))) := by
  unfold takeOpen
  rw [request]
  rfl

theorem recordAt_withRecord (i : Fin 512) (r : FrameRecord) (t : State) :
    recordAt (withRecord i r t) (slotHandle t i) = some r := by
  simp only [recordAt, withRecord, slotHandle, slots_setSlot, if_true]

/-- The context that a packer begins for a record (R98). -/
def begunContext (h : Handle) (r : FrameRecord) : FrameContext where
  handle := h
  preview := r.preview
  columns := match r.preview with
    | some d => List.replicate (r.width / d) (0, 0)
    | none => []
  rows := 0

theorem beginContext_some {n : Unit8} {h : Handle} {s : State} {r : FrameRecord} (found : recordAt s h = some r) :
    beginContext n h s = s.setPacker n { s.packer n with context := some (begunContext h r) } := by
  unfold beginContext
  rw [found]
  rfl

/-- What a report makes of the table depends on the table alone. -/
theorem report_itab_congr {s t : State} (same : t.itab = s.itab) (item : Nat) (ch : Unit8) (r : Report) :
    (report item ch r t).itab = (report item ch r s).itab := by
  have message (type : Byte) (b : List Byte) (u : State) : (queueMessage type b u).itab = u.itab :=
    congrArg Prod.fst (queueMessage_bench type b u)
  have change (f : Item → Item) {u v : State} (h : v.itab = u.itab) : (modItem item f v).itab = (modItem item f u).itab := by
    unfold modItem
    rw [h]
    rfl
  have complete {u v : State} (h : v.itab = u.itab) : (completeIfSettled item v).itab = (completeIfSettled item u).itab := by
    have found : findItem v item = findItem u item := findItem_of_items (congrArg Itab.items h) item
    cases look : findItem u item with
    | none => rw [completeIfSettled_none look, completeIfSettled_none (found.trans look), h]
    | some it =>
      rw [completeIfSettled_some look, completeIfSettled_some (found.trans look)]
      split
      · rw [message, message, change _ h]
      · exact h
  exact complete (change _ same)

theorem RoomFor.port {s t : State} {i : Fin 512} (room : RoomFor s i t) (n : Unit8) : t.port n = s.port n := by
  obtain ⟨-, rfl⟩ | ⟨old, -, -, -, rfl⟩ := room
  · rfl
  · exact port_of_front (evict_front old s) n

theorem RoomFor.itab {s t : State} {i : Fin 512} (room : RoomFor s i t) : t.itab = s.itab := by
  obtain ⟨-, rfl⟩ | ⟨old, -, -, -, rfl⟩ := room
  · rfl
  · exact congrArg Prod.fst (evict_bench old s)

/-- The last steps of an open: the context, the report, the window record (R63). -/
def windowOpened (n : Unit8) (item : Nat) (pos : Pos) (h : Handle) (r : FrameRecord) (u : State) : State :=
  modChan n (fun c => { c with window := some (openedWindow item h pos c.queue) })
    (report item n (.fired h) (u.setPacker n { u.packer n with context := some (begunContext h r) }))

/-- A WINDOW_OPEN that the store has room for, in its steps (R63, R92, R98). -/
theorem takeOpen_placed {n : Unit8} {s t : State} {i : Fin 512} (idle : (s.port n).state = .idle) (room : RoomFor s i t)
    (item : Nat) (pos : Pos) : takeOpen n item pos s =
      windowOpened n item pos (slotHandle t i) (shotRecord n item pos .filling s)
        (windowStarted n (slotHandle t i) (withRecord i (shotRecord n item pos .filling s) t)) := by
  rw [takeOpen_opened (requestShot_placed idle room item pos true)]
  have found : recordAt (windowStarted n (slotHandle t i) (withRecord i (shotRecord n item pos .filling s) t)) (slotHandle t i) =
    some (shotRecord n item pos .filling s) := recordAt_withRecord i _ t
  unfold windowOpened
  rw [← beginContext_some found]
  rfl

section
variable (n : Unit8) (item : Nat) (pos : Pos) (h : Handle) (r : FrameRecord) (u : State)

theorem windowOpened_chan : (windowOpened n item pos h r u).chan n =
    { u.chan n with window := some (openedWindow item h pos (u.chan n).queue) } := by
  rw [windowOpened, chan_modChan, if_pos rfl, chan_of_trgu (report_trgu _ _ _ _), State.chan_setPacker]

theorem windowOpened_port : (windowOpened n item pos h r u).port n = u.port n :=
  port_of_front (report_front item n (.fired h) _) n

theorem windowOpened_fsto : (windowOpened n item pos h r u).fsto = u.fsto := report_fsto item n (.fired h) _

theorem windowOpened_itab : (windowOpened n item pos h r u).itab = (report item n (.fired h) u).itab :=
  report_itab_congr (s := u) (t := u.setPacker n { u.packer n with context := some (begunContext h r) }) rfl item n (.fired h)

theorem windowOpened_context : ((windowOpened n item pos h r u).packer n).context = some (begunContext h r) := by
  have packer := congrArg (fun x : Trgu × Vector Port 8 × Vector Packer 8 => x.2.2[n]) (report_front item n (.fired h)
    (u.setPacker n { u.packer n with context := some (begunContext h r) }))
  exact congrArg Packer.context (packer.trans (State.packer_setPacker u n _))

end

theorem windowStarted_chan (n : Unit8) (h : Handle) (s : State) : (windowStarted n h s).chan n =
    { s.chan n with active := (s.chan n).shadow, fired := (s.chan n).fired + 1 } :=
  State.chan_setChan s n _

theorem windowStarted_port (n : Unit8) (h : Handle) (s : State) : (windowStarted n h s).port n = (s.port n).started h :=
  State.port_setPort (loadShadow n s) n _

/-- What a WINDOW_OPEN that the store has room for leaves (R63, R92, R98). -/
theorem takeOpen_opens {n : Unit8} {s t : State} {i : Fin 512} (idle : (s.port n).state = .idle) (room : RoomFor s i t)
    (item : Nat) (pos : Pos) : let u := takeOpen n item pos s
    let h := slotHandle t i
    let r := shotRecord n item pos .filling s
    u.chan n = { s.chan n with
      active := (s.chan n).shadow, fired := (s.chan n).fired + 1, window := some (openedWindow item h pos (s.chan n).queue) } ∧
    u.port n = (s.port n).started h ∧ recordAt u h = some r ∧ (u.packer n).context = some (begunContext h r) ∧
    u.itab = (report item n (.fired h) s).itab ∧ u.posu = s.posu ∧ u.trgu.eject = s.trgu.eject := by
  intro u h r
  obtain ⟨still, table, -⟩ := takeOpen_calm n item pos s
  simp only [State.still, State.table, Prod.mk.injEq] at still table
  obtain ⟨-, -, -, -, posu, -⟩ := still
  obtain ⟨-, -, eject⟩ := table
  have chan : (withRecord i r t).chan n = s.chan n := room.chan n
  have port : (withRecord i r t).port n = s.port n := room.port n
  have itab : (windowStarted n h (withRecord i r t)).itab = s.itab := room.itab
  have opened : u = windowOpened n item pos h r (windowStarted n h (withRecord i r t)) := takeOpen_placed idle room item pos
  refine ⟨?_, ?_, ?_, ?_, ?_, posu, eject⟩ <;> rw [opened]
  · rw [windowOpened_chan, windowStarted_chan, chan]
  · rw [windowOpened_port, windowStarted_port, port]
  · rw [recordAt_of_fsto (windowOpened_fsto _ _ _ _ _ _)]
    exact recordAt_withRecord i r t
  · exact windowOpened_context _ _ _ _ _ _
  · rw [windowOpened_itab, report_itab_congr itab]

end Sys2Proof.Machine
end

section
/-! PROOFS. The end of a frame for what its record keeps, line triggers, the close of a window and the lines awaited (O37). -/

namespace Sys2Proof.Machine

/-! ## What the end of a frame keeps of its record (R98, R121, R123) -/

/-- `p` reads nothing of a record that the end of its frame writes. -/
structure KeptAtEnd {α : Type} (p : FrameRecord → α) : Prop where
  ended : ∀ r state stamp, p { r with state := state, endStamp := stamp } = p r
  marked : ∀ r flags, p { r with flags := flags } = p r
  lines : ∀ r lines, p { r with previewLines := lines } = p r
  preview : ∀ r state, p { r with previewState := state } = p r
  full : ∀ r state, p { r with fullState := state } = p r

section
variable {α : Type} {p : FrameRecord → α} (hp : KeptAtEnd p)
include hp

theorem joinPull_keeps (h : Handle) (s : State) : FstoKept p s (joinPull h s) :=
  FstoKept.before (modRecord_fstoKept h (fun r => hp.full r _) _) (.of_fsto rfl)

theorem settlePreview_keeps (h : Handle) (s : State) : FstoKept p s (settlePreview h s) := by
  unfold settlePreview
  split
  · exact .of_fsto rfl
  · split
    · exact FstoKept.before (modRecord_fstoKept h (fun r => hp.preview r _) _) (.of_fsto rfl)
    · exact modRecord_fstoKept h (fun r => hp.preview r _) s

theorem handOverPull_keeps (h : Handle) (s : State) : FstoKept p s (handOverPull h s) := by
  unfold handOverPull
  split
  · exact .of_fsto rfl
  · split
    · exact joinPull_keeps hp h s
    · exact .of_fsto rfl

theorem applyAutoFull_keeps (atEnd : Bool) (h : Handle) (s : State) : FstoKept p s (applyAutoFull atEnd h s) := by
  unfold applyAutoFull
  split
  · split
    · exact joinPull_keeps hp h s
    · exact .of_fsto (setOffice_fsto _ _)
  · exact .of_fsto rfl

theorem endWork_keeps (h : Handle) (s : State) : FstoKept p s (endWork h s) :=
  (FstoKept.of_fsto (reportEnd_fsto h s)).trans ((settlePreview_keeps hp h _).trans
    ((handOverPull_keeps hp h _).trans (applyAutoFull_keeps hp true h _)))

theorem endRecord_keeps (h : Handle) (final : RecordState) (s : State) : RecordsKept p s (endRecord h final s) := by
  cases found : recordAt s h with
  | none =>
    rw [endRecord_none found]
    exact .of_fsto rfl
  | some r =>
    rw [endRecord_some found]
    have done : FstoKept p s (finished h final s) := modRecord_fstoKept h (fun r => hp.ended r _ _) s
    generalize finished h final s = u at done ⊢
    have aged : RecordsKept p u (u.setFsto { u.fsto with age := u.fsto.age ++ [h] }) := setFsto_records rfl rfl
    exact done.toRecordsKept.trans (aged.trans (endWork_keeps hp h _).toRecordsKept)

theorem writePreviewLine_keeps (n : Unit8) (ctx : FrameContext) (s : State) : FstoKept p s (writePreviewLine n ctx s) := by
  unfold writePreviewLine
  split
  · exact .of_fsto rfl
  · exact FstoKept.before (modRecord_fstoKept _ (fun r => hp.lines r _) _) ⟨setFsto_records rfl rfl, rfl⟩

theorem endContext_keeps (n : Unit8) (s : State) : FstoKept p s (endContext n s) := by
  unfold endContext
  split
  · exact .of_fsto rfl
  · rename_i ctx _
    extract_lets s1
    have written : FstoKept p s s1 := by
      change FstoKept p s (if _ then _ else _)
      split
      · exact writePreviewLine_keeps hp n ctx s
      · exact .of_fsto rfl
    exact written.trans (.of_fsto rfl)

theorem frameLet_keeps (n : Unit8) (h : Handle) (mark : FrameFlags → FrameFlags) (s : State) :
    FstoKept p s (frameLet n h mark s) :=
  (endContext_keeps hp n s).trans ((modRecord_fstoKept h (fun r => hp.marked r _) _).trans (.of_fsto rfl))

theorem endFrame_keeps (n : Unit8) (final : RecordState) (mark : FrameFlags → FrameFlags) (s : State) :
    RecordsKept p s (endFrame n final mark s) := by
  cases cur : (s.port n).current with
  | none =>
    unfold endFrame
    rw [cur]
    exact .of_fsto rfl
  | some h =>
    rw [endFrame_of_current cur]
    refine (frameLet_keeps hp n h mark s).toRecordsKept.trans (RecordsKept.trans ?_ (endRecord_keeps hp h final _))
    split
    · exact .of_fsto (setBoth_fsto _ _)
    · exact .of_fsto rfl

end

/-- The record of a frame that ends, for another reason than a full store, and the age list (R121, R123). -/
theorem endFrame_ends {n : Unit8} {s : State} {h : Handle} {f : FrameRecord} (cur : (s.port n).current = some h)
    (found : recordAt s h = some f) {final : RecordState} (reason : final ≠ .truncated .storeFull)
    (mark : FrameFlags → FrameFlags) :
    (∃ f', recordAt (endFrame n final mark s) h = some f' ∧ f'.ending = (f.core, final, some s.stamp)) ∧
      (endFrame n final mark s).fsto.age = s.fsto.age ++ [h] := by
  have kept := frameLet_fstoKept n h mark s
  have stamp := frameLet_stamp n h mark s
  rw [endFrame_of_current cur, if_neg reason]
  generalize frameLet n h mark s = u at kept stamp ⊢
  obtain ⟨g, found', core⟩ := kept.record h f found
  have ends := endRecord_ends found' final
  rwa [core, stamp, kept.age] at ends

/-! ## Lines that stay out (R64, R65) -/

/-- A change of a record changes the store alone. -/
theorem modRecord_rest (h : Handle) (f : FrameRecord → FrameRecord) (s : State) :
    modRecord h f s = s.setFsto (modRecord h f s).fsto := by
  unfold modRecord
  split <;> rfl

/-- A frame record with the outstanding line of its window, if there is one, counted missing (R64, R65). -/
def Window.counted (w : Window) (r : FrameRecord) : FrameRecord :=
  if w.outstanding then { r with missing := min 65535 (r.missing + 1) } else r

/-- The state with that line counted. -/
def lineMissed (w : Window) (s : State) : State := if w.outstanding then addMissing w.handle s else s

theorem lineMissed_eq (w : Window) (s : State) : lineMissed w s = modRecord w.handle w.counted s := by
  unfold lineMissed Window.counted
  split
  · rfl
  · cases found : recordAt s w.handle with
    | none => rw [modRecord_none _ found]
    | some r =>
      obtain ⟨gen, record⟩ := gen_of_recordAt found
      have same : ({ gen := w.handle.gen, record := some r } : Slot) = s.fsto.slots[w.handle.slot] := by rw [← gen, ← record]
      unfold modRecord
      rw [found]
      simp only [State.setSlot, same]
      simp

theorem lineMissed_rest (w : Window) (s : State) : lineMissed w s = s.setFsto (lineMissed w s).fsto := by
  rw [lineMissed_eq]
  exact modRecord_rest _ _ _

theorem lineMissed_record (w : Window) (s : State) :
    recordAt (lineMissed w s) w.handle = (recordAt s w.handle).map w.counted := by
  rw [lineMissed_eq]
  cases found : recordAt s w.handle with
  | none => rw [modRecord_none _ found, found, Option.map_none]
  | some r => rw [recordAt_modRecord _ found, Option.map_some]

theorem lineMissed_age (w : Window) (s : State) :
    (lineMissed w s).fsto.age = s.fsto.age ∧ (lineMissed w s).fsto.pool = s.fsto.pool := by
  rw [lineMissed_eq]
  have kept := modRecord_fstoKept (p := fun _ => ()) w.handle (g := w.counted) (fun _ => rfl) s
  exact ⟨kept.age, kept.pool⟩

theorem counted_state (w : Window) (r : FrameRecord) : (w.counted r).state = r.state := by
  unfold Window.counted
  split <;> rfl

theorem counted_lines (w : Window) (r : FrameRecord) :
    (w.counted r).lines = r.lines ∧ (w.counted r).fullBlocks = r.fullBlocks := by
  unfold Window.counted
  split <;> exact ⟨rfl, rfl⟩

theorem lineMissed_filling (w : Window) (s : State) : isFilling (lineMissed w s) w.handle = isFilling s w.handle := by
  rw [isFilling_eq, isFilling_eq, lineMissed_record]
  cases recordAt s w.handle with
  | none => rfl
  | some r => simp [counted_state]

/-! ## Line triggers (R64) -/

/-- A line trigger of the window is due at `p` (R64). -/
def LineDue (w : Window) (p : Pos) (s : State) : Prop :=
  w.nextLine = p ∧ (recordAt s w.handle).any (fun r => decide (r.state = .filling)) = true ∧
    ∀ q home, w.close = some (q, home) → 1 ≤ (q - p).toNat ∧ (q - p).toNat < 2 ^ 31

/-- The channel after a line trigger, before its pulse. -/
def lineTriggered (p : Pos) (w : Window) (c : Channel) : Channel :=
  { c with window := some { w with outstanding := true, nextLine := p + BitVec.ofNat 32 c.scanPitch } }

section
variable {n : Unit8} {p : Pos} {s : State} {w : Window} (isOpen : (s.chan n).window = some w)
include isOpen

theorem takeLineTrigger_due (due : LineDue w p s) : takeLineTrigger n p s =
    startPulse n ((lineMissed w s).setChan n (lineTriggered p w ((lineMissed w s).chan n))) := by
  obtain ⟨next, filling, short⟩ := due
  rw [← isFilling_eq] at filling
  unfold takeLineTrigger
  rw [isOpen]
  refine if_pos ?_
  cases close : w.close with
  | none => simp [next, filling]
  | some k =>
    have ahead : aheadBy 1 k.1 p = true := aheadBy_iff.2 (short k.1 k.2 close)
    simp [next, filling, ahead]

theorem takeLineTrigger_idle (idle : ¬LineDue w p s) : takeLineTrigger n p s = s := by
  unfold takeLineTrigger
  rw [isOpen]
  refine if_neg fun due => idle ?_
  simp only [Bool.and_eq_true, decide_eq_true_eq] at due
  obtain ⟨⟨next, filling⟩, short⟩ := due
  rw [isFilling_eq] at filling
  refine ⟨next, filling, fun q home close => ?_⟩
  rw [close] at short
  exact aheadBy_iff.1 short

end

/-- What a line trigger that is due does, from the record with its line counted. -/
theorem lineTrigger_state {n : Unit8} {p : Pos} {s t : State} {w : Window} (isOpen : (s.chan n).window = some w)
    (due : LineDue w p s) (taken : takeLineTrigger n p s = t) :
    t.chan n = (startPulse n (s.setChan n (lineTriggered p w (s.chan n)))).chan n ∧
    recordAt t w.handle = (recordAt s w.handle).map w.counted ∧ t.ports = s.ports ∧ t.itab = s.itab ∧ t.rnu = s.rnu ∧
    t.fwd = s.fwd ∧ t.fsto.age = s.fsto.age ∧ t.fsto.pool = s.fsto.pool := by
  have counted := lineMissed_record w s
  have rest := lineMissed_rest w s
  obtain ⟨age, pool⟩ := lineMissed_age w s
  rw [takeLineTrigger_due isOpen due] at taken
  subst taken
  generalize (lineMissed w s).fsto = f at rest age pool
  rw [rest] at counted ⊢
  exact ⟨rfl, counted, rfl, rfl, rfl, rfl, age, pool⟩

/-! ## The close (R65, R93) -/

/-- The close of the window completes its frame: the port's current one, and FILLING (R65). -/
def ClosesWhole (n : Unit8) (w : Window) (s : State) : Prop :=
  (s.port n).current = some w.handle ∧ (recordAt s w.handle).any (fun r => decide (r.state = .filling)) = true

theorem lineMissed_port (w : Window) (s : State) (n : Unit8) : (lineMissed w s).port n = s.port n := by
  rw [lineMissed_rest, State.port_setFsto]

theorem closeFrame_test (n : Unit8) (w : Window) (s : State) : (decide (((lineMissed w s).port n).current = some w.handle) &&
    isFilling (lineMissed w s) w.handle) = true ↔ ClosesWhole n w s := by
  rw [lineMissed_filling, isFilling_eq, lineMissed_port, Bool.and_eq_true, decide_eq_true_eq]
  rfl

theorem closeFrame_whole {n : Unit8} {w : Window} {s : State} (whole : ClosesWhole n w s) :
    closeFrame n w s = completeFrame n id (lineMissed w s) := if_pos ((closeFrame_test n w s).2 whole)

theorem closeFrame_part {n : Unit8} {w : Window} {s : State} (part : ¬ClosesWhole n w s) : closeFrame n w s = lineMissed w s :=
  if_neg (mt (closeFrame_test n w s).1 part)

/-- The port that gives up a frame that is complete (R88, R93). -/
theorem completeFrame_port (n : Unit8) (mark : FrameFlags → FrameFlags) {s : State} {h : Handle}
    (cur : (s.port n).current = some h) : (completeFrame n mark s).port n = { s.port n with
      current := none, windowEnd := none
      counters := { (s.port n).counters with completed := (s.port n).counters.completed + 1 } } := by
  rw [completeFrame, countPort, port_modPort, if_pos rfl, endFrame_port, cur]
  rfl

section
variable {n : Unit8} {s : State} {w : Window} (isOpen : (s.chan n).window = some w)
include isOpen

theorem takeClose_fsto : (takeClose n s).fsto = (closeFrame n w s).fsto := by
  rw [takeClose_some isOpen, settleChannel_eq]
  rfl

theorem takeClose_ownPort : (takeClose n s).port n =
    { (closeFrame n w s).port n with state := ((closeFrame n w s).port n).state.closed } := by
  rw [takeClose_some isOpen, settleChannel_port, port_modChan, port_modPort, if_pos rfl]

theorem takeClose_port_whole (whole : ClosesWhole n w s) : (takeClose n s).port n = { s.port n with
    state := (s.port n).state.closed, current := none, windowEnd := none
    counters := { (s.port n).counters with completed := (s.port n).counters.completed + 1 } } := by
  have cur : ((lineMissed w s).port n).current = some w.handle := (congrArg Port.current (lineMissed_port w s n)).trans whole.1
  rw [takeClose_ownPort isOpen, closeFrame_whole whole, completeFrame_port n id cur, lineMissed_port]

theorem takeClose_port_part (part : ¬ClosesWhole n w s) :
    (takeClose n s).port n = { s.port n with state := (s.port n).state.closed } := by
  rw [takeClose_ownPort isOpen, closeFrame_part part, lineMissed_port]

theorem takeClose_ownChan : (takeClose n s).chan n =
    if (s.chan n).state = .halting ∧ (s.chan n).queue = [] ∧ (s.port n).state.closed.atRest = true then
      { s.chan n with window := none, state := .idle, plan := .off, freeRun := none }
    else { s.chan n with window := none } := by
  rw [takeClose_chan, if_pos rfl, closedChan, isOpen]
  exact if_congr (by simp) rfl rfl

theorem takeClose_record_part (part : ¬ClosesWhole n w s) :
    recordAt (takeClose n s) w.handle = (recordAt s w.handle).map w.counted ∧ (takeClose n s).fsto.age = s.fsto.age := by
  rw [recordAt_of_fsto (takeClose_fsto isOpen), takeClose_fsto isOpen, closeFrame_part part]
  exact ⟨lineMissed_record w s, (lineMissed_age w s).1⟩

/-- The record of the frame that a close completes. -/
theorem takeClose_record_whole (whole : ClosesWhole n w s) {r : FrameRecord} (found : recordAt s w.handle = some r) :
    (takeClose n s).fsto.age = s.fsto.age ++ [w.handle] ∧ ∃ r', recordAt (takeClose n s) w.handle = some r' ∧
      r'.state = .complete ∧ r'.endStamp = some s.stamp ∧ r'.missing = (w.counted r).missing ∧ r'.lines = r.lines ∧
      r'.fullBlocks = r.fullBlocks := by
  have cur : ((lineMissed w s).port n).current = some w.handle := (congrArg Port.current (lineMissed_port w s n)).trans whole.1
  have counted : recordAt (lineMissed w s) w.handle = some (w.counted r) := by rw [lineMissed_record, found, Option.map_some]
  have stamp : (lineMissed w s).stamp = s.stamp := by rw [lineMissed_rest, State.setFsto_stamp]
  have fsto : (takeClose n s).fsto = (endFrame n .complete id (lineMissed w s)).fsto := by
    rw [takeClose_fsto isOpen, closeFrame_whole whole]
    rfl
  have missing : KeptAtEnd FrameRecord.missing :=
    ⟨fun _ _ _ => rfl, fun _ _ => rfl, fun _ _ => rfl, fun _ _ => rfl, fun _ _ => rfl⟩
  obtain ⟨⟨r', found', ending⟩, age⟩ := endFrame_ends cur counted (final := .complete) (fun h => nomatch h) id
  obtain ⟨r'', found'', same⟩ := (endFrame_keeps missing n .complete id _).record _ _ counted
  obtain rfl : r'' = r' := Option.some.inj (found''.symm.trans found')
  simp only [FrameRecord.ending, FrameRecord.core, Prod.mk.injEq] at ending
  obtain ⟨⟨-, -, -, -, lines, blocks⟩, state, stamped⟩ := ending
  rw [fsto, recordAt_of_fsto fsto, ← (lineMissed_age w s).1, ← stamp]
  exact ⟨age, r'', found', state, stamped, same, lines.trans (counted_lines w r).1, blocks.trans (counted_lines w r).2⟩

end

/-! ## The lines awaited (R91, R92) -/

/-- A line that a SCAN window awaits: offered to the store, its flag cleared, and the frame cut LONG at the limit (R92). -/
theorem takeScanLine_awaited {n : Unit8} {s : State} (awaited : (s.chan n).window.any (·.outstanding) = true)
    (samples : List Nat) : takeScanLine n samples s =
      if linesReceived n (clearOutstanding n (offerLine n samples s).2) < 16384 then
        clearOutstanding n (offerLine n samples s).2
      else modPort n (fun p => { p with state := .draining })
        (truncateFrame n .long (clearOutstanding n (offerLine n samples s).2)) := by
  unfold takeScanLine
  rw [if_pos awaited]
  exact (if_congr Nat.not_lt.symm rfl rfl).trans (ite_not _ _ _)

theorem takeLn_scan {n : Unit8} {s : State} (run : inReset s = false) (lock : s.pins.lock[n] = true)
    (scan : (s.port n).kind = .scan) (receiving : (s.port n).state = .receiving) (l : List (BitVec 14)) :
    takeLn n l s = takeScanLine n (l.map fun x => x.toNat % 2 ^ (s.port n).depth) s := by
  have delivered : delivers n s = true := by
    unfold delivers
    rw [run]
    exact lock
  unfold takeLn
  simp only [delivered, receiving, scan, Bool.not_true, Bool.false_eq_true, if_false]

theorem exec_lnWord (n : Unit8) (l : List (BitVec 14)) (s : State) : exec (.lnWord n l) s = .next (takeLn n l s) := rfl

/-- Settles O37: the open by its fire stage, line triggers and the close by the window, and a line awaited by its flag. -/
theorem scanWindowsOpenTakeLinesAndClose : Obligations.ScanWindowsOpenTakeLinesAndClose := by
  refine ⟨fun n item pos s => ?_, fun n p s => ⟨fun closed => ?_, fun w isOpen => ?_⟩,
    fun n l s run lock scan receiving awaited => ?_⟩
  · intro c miss
    refine ⟨fun lost => takeOpen_missed (requestShot_refused (portRefusal_lost lost) _ _ _) rfl,
      fun busy => takeOpen_missed (requestShot_refused (portRefusal_busy busy) _ _ _) rfl,
      fun idle => ⟨fun free old => takeOpen_missed (requestShot_full idle free old _ _ _) (recordShort_chan s n),
        fun i t room => takeOpen_opens idle room item pos⟩⟩
  · refine ⟨?_, takeClose_none closed⟩
    unfold takeLineTrigger
    rw [closed]
  · intro marked filling due
    refine ⟨takeLineTrigger_idle isOpen, fun now => lineTrigger_state isOpen now rfl, ?_⟩
    intro t whole st
    refine ⟨?_, takeClose_ownChan isOpen, takeClose_record_part isOpen, fun complete => ?_⟩
    · by_cases complete : whole
      · rw [if_pos complete]
        exact takeClose_port_whole isOpen complete
      · rw [if_neg complete]
        exact takeClose_port_part isOpen complete
    · obtain ⟨r, found, -⟩ := (Option.any_eq_true _ _).1 complete.2
      have done {r : FrameRecord} (found : recordAt s w.handle = some r) := takeClose_record_whole isOpen complete found
      exact ⟨(done found).1, fun r found => (done found).2⟩
  · rw [exec_lnWord, takeLn_scan run lock scan receiving, takeScanLine_awaited awaited]
    rfl

end Sys2Proof.Machine
end

section
/-! PROOFS. The settings of a camera port and of its packer: SET_PORT, SET_CONVERSION and SET_PREVIEW (O39). -/

namespace Sys2Proof.Machine

/-! ## Arguments that name a setting -/

theorem portKindOf_code (k : PortKind) : portKindOf k.code.toNat = some k := by cases k <;> rfl

theorem formatOf_code (f : Format) : formatOf f.code.toNat = some f := by cases f <;> rfl

theorem roundingOf_code (m : Rounding) : roundingOf m.code.toNat = some m := by cases m <;> rfl

theorem rangeModeOf_code (g : RangeMode) : rangeModeOf g.code.toNat = some g := by cases g <;> rfl

theorem portKindOf_lt {v : Nat} {k : PortKind} (h : portKindOf v = some k) : v < 2 := by
  by_contra out
  obtain ⟨u, rfl⟩ := Nat.exists_eq_add_of_le' (Nat.not_lt.1 out)
  exact nomatch h

theorem formatOf_lt {v : Nat} {f : Format} (h : formatOf v = some f) : v < 4 := by
  by_contra out
  obtain ⟨u, rfl⟩ := Nat.exists_eq_add_of_le' (Nat.not_lt.1 out)
  exact nomatch h

theorem roundingOf_lt {v : Nat} {m : Rounding} (h : roundingOf v = some m) : v < 4 := by
  by_contra out
  obtain ⟨u, rfl⟩ := Nat.exists_eq_add_of_le' (Nat.not_lt.1 out)
  exact nomatch h

theorem rangeModeOf_lt {v : Nat} {g : RangeMode} (h : rangeModeOf v = some g) : v < 2 := by
  by_contra out
  obtain ⟨u, rfl⟩ := Nat.exists_eq_add_of_le' (Nat.not_lt.1 out)
  exact nomatch h

theorem boolOf_lt {v : Nat} {b : Bool} (h : boolOf v = some b) : v < 2 := by
  by_contra out
  rw [boolOf_none (Nat.not_lt.1 out)] at h
  exact nomatch h

/-! ## Ranges -/

/-- The ranges of SET_PORT's numbers (R78). -/
abbrev PortRanges (args : List Byte) : Prop :=
  16 ≤ argNat args 2 2 ∧ argNat args 2 2 ≤ 8192 ∧ argNat args 2 2 % 16 = 0 ∧ 1 ≤ argNat args 4 2 ∧ argNat args 4 2 ≤ 4096 ∧
    argNat args 6 1 ∈ [8, 10, 12, 14] ∧ 1 ≤ argNat args 7 4 ∧ argNat args 7 4 ≤ 1000000

theorem depthOk_iff (d : Nat) : depthOk d = true ↔ d ∈ [8, 10, 12, 14] := by simp [depthOk, or_assoc]

theorem factorOk_iff (d : Nat) : factorOk d = true ↔ d ∈ [2, 4, 8, 16] := by simp [factorOk, or_assoc]

theorem portArgs_iff (args : List Byte) :
    (within 16 8192 (argNat args 2 2) && decide (argNat args 2 2 % 16 = 0) && within 1 4096 (argNat args 4 2) &&
      depthOk (argNat args 6 1) && within 1 1000000 (argNat args 7 4)) = true ↔ PortRanges args := by
  simp only [Bool.and_eq_true, within_iff, decide_eq_true_eq, depthOk_iff, PortRanges, and_assoc]

theorem settable_iff (n : Unit8) (s : State) : settable n s = true ↔
    ((s.port n).state = .disabled ∨ (s.port n).state = .idle) ∧ (s.chan n).queue = [] ∧ (s.chan n).window = none := by
  simp [settable, and_assoc]

/-! ## The three handlers -/

/-- SET_PORT with a kind that its argument names (R78). -/
theorem runSetPort_eq {args : List Byte} {n : Unit8} {k : PortKind} (named : argNat args 0 1 = n.val)
    (kind : portKindOf (argNat args 1 1) = some k) (m : Master) (s : State) : runSetPort m args s =
      if ¬PortRanges args then (s, [0x03])
      else if ¬(((s.port n).state = .disabled ∨ (s.port n).state = .idle) ∧ (s.chan n).queue = [] ∧
          (s.chan n).window = none) then (s, [0x02])
      else (s.setPort n { s.port n with
        kind := k, width := argNat args 2 2, lines := argNat args 4 2, depth := argNat args 6 1
        frameWindow := argNat args 7 4 }, [0x01]) := by
  rw [runSetPort, onUnit_some named]
  simp only [kind]
  refine if_congr ?_ rfl (if_congr ?_ rfl rfl)
  · rw [Bool.not_eq_true', ← Bool.not_eq_true, portArgs_iff]
  · rw [Bool.not_eq_true', ← Bool.not_eq_true, settable_iff]

/-- SET_PORT with a port, a kind or a number outside its values (R78). -/
theorem runSetPort_out {args : List Byte} (out : 8 ≤ argNat args 0 1 ∨ 2 ≤ argNat args 1 1 ∨ ¬PortRanges args) (m : Master)
    (s : State) : runSetPort m args s = (s, [0x03]) := by
  refine onUnit_refused fun n named => ?_
  cases kind : portKindOf (argNat args 1 1) with
  | none => exact (onUnit_some named m s).trans (by simp only [kind]; rfl)
  | some k =>
    have range : ¬PortRanges args := by
      rcases out with h | h | h
      · omega
      · exact absurd (portKindOf_lt kind) (Nat.not_lt.2 h)
      · exact h
    exact (runSetPort_eq named kind m s).trans (if_pos range)

/-- SET_CONVERSION with values that name settings (R100). -/
theorem setConversion_eq (n : Unit8) (c : Conversion) (s : State) : setConversion n c s =
    if ¬(-4096 ≤ c.blackOffset ∧ c.blackOffset ≤ 4095 ∧ c.faultLimit ≤ 16777216) then (s, [0x03])
    else if ¬(((s.port n).state = .disabled ∨ (s.port n).state = .idle) ∧ (s.chan n).queue = [] ∧
        (s.chan n).window = none) then (s, [0x02])
    else (s.setPacker n { s.packer n with conversion := c }, [0x01]) := by
  refine if_congr ?_ rfl (if_congr ?_ rfl rfl)
  · simp only [← Bool.decide_and, Bool.not_eq_true', decide_eq_false_iff_not, and_assoc]
  · rw [Bool.not_eq_true', ← Bool.not_eq_true, settable_iff]

/-- SET_CONVERSION with settings that its arguments name (R100). -/
theorem runSetConversion_eq {args : List Byte} {n : Unit8} {f : Format} {d : Rounding} {g : RangeMode} {b : Bool}
    (named : argNat args 0 1 = n.val) (format : formatOf (argNat args 1 1) = some f)
    (rounding : roundingOf (argNat args 6 1) = some d) (mode : rangeModeOf (argNat args 7 1) = some g)
    (report : boolOf (argNat args 12 1) = some b) (m : Master) (s : State) : runSetConversion m args s =
      setConversion n {
        format := f, blackOffset := argInt2 args 2, gain := argNat args 4 2, rounding := d, rangeMode := g
        faultLimit := argNat args 8 4, faultReport := b } s := by
  rw [runSetConversion, onUnit_some named]
  simp only [format, rounding, mode, report]

/-- SET_CONVERSION with an argument outside its values (R100). -/
theorem runSetConversion_out {args : List Byte} (out : 8 ≤ argNat args 0 1 ∨ 4 ≤ argNat args 1 1 ∨ 4 ≤ argNat args 6 1 ∨
    2 ≤ argNat args 7 1 ∨ 2 ≤ argNat args 12 1 ∨
    ¬(-4096 ≤ argInt2 args 2 ∧ argInt2 args 2 ≤ 4095 ∧ argNat args 8 4 ≤ 16777216)) (m : Master) (s : State) :
    runSetConversion m args s = (s, [0x03]) := by
  refine onUnit_refused fun n named => (onUnit_some named m s).trans ?_
  split
  · rename_i f d g b format rounding mode report
    have := formatOf_lt format
    have := roundingOf_lt rounding
    have := rangeModeOf_lt mode
    have := boolOf_lt report
    exact (setConversion_eq n _ s).trans (if_pos (by rcases out with h | h | h | h | h | h <;> omega))
  · rfl

/-- SET_PREVIEW with an on/off flag that its argument names (R108). -/
theorem runSetPreview_eq {args : List Byte} {n : Unit8} {b : Bool} (named : argNat args 0 1 = n.val)
    (on : boolOf (argNat args 1 1) = some b) (m : Master) (s : State) : runSetPreview m args s =
      if argNat args 2 1 ∈ [2, 4, 8, 16] then
        (s.setPacker n { s.packer n with previewOn := b, previewFactor := argNat args 2 1 }, [0x01])
      else (s, [0x03]) := by
  rw [runSetPreview, onUnit_some named]
  simp only [on]
  exact if_congr (factorOk_iff _) rfl rfl

/-- SET_PREVIEW with an argument outside its values (R108). -/
theorem runSetPreview_out {args : List Byte} (out : 8 ≤ argNat args 0 1 ∨ 2 ≤ argNat args 1 1 ∨
    argNat args 2 1 ∉ [2, 4, 8, 16]) (m : Master) (s : State) : runSetPreview m args s = (s, [0x03]) := by
  refine onUnit_refused fun n named => ?_
  cases on : boolOf (argNat args 1 1) with
  | none => exact (onUnit_some named m s).trans (by simp only [on]; rfl)
  | some b =>
    have factor : argNat args 2 1 ∉ [2, 4, 8, 16] := by
      rcases out with h | h | h
      · omega
      · exact absurd (boolOf_lt on) (Nat.not_lt.2 h)
      · exact h
    exact (runSetPreview_eq named on m s).trans (if_neg factor)

/-- Settles O39: each of the three requests by its handler, with its values in their ranges and with one that is not. -/
theorem portSettingsAreWrittenWholeOrNot : Obligations.PortSettingsAreWrittenWholeOrNot := by
  intro args s
  refine ⟨fun hc => ⟨fun hl => ⟨fun out => ?_, fun n k named kind within => ?_⟩,
    fun hl => ⟨fun out => ?_, fun n f d g b named format rounding mode rep within => ?_⟩⟩,
    fun tag hc hl => ⟨fun out => ?_, fun n b named on factor => ?_⟩⟩
  · exact serves_lineOp rfl rfl hc hl (runSetPort_out out _ _)
  · have run := runSetPort_eq named (kind ▸ portKindOf_code k) .line (ready .line s)
    rw [if_neg (not_not.2 within), ready_port, ready_chan] at run
    split_ifs with free
    · exact serves_lineOp rfl rfl hc hl (run.trans (if_neg (not_not.2 free)))
    · exact serves_lineOp rfl rfl hc hl (run.trans (if_pos free))
  · exact serves_lineOp rfl rfl hc hl (runSetConversion_out out _ _)
  · have run := runSetConversion_eq named (format ▸ formatOf_code f) (rounding ▸ roundingOf_code d)
      (mode ▸ rangeModeOf_code g) (rep ▸ boolOf_toNat b) .line (ready .line s)
    rw [setConversion_eq, if_neg (not_not.2 within), ready_port, ready_chan, ready_packer] at run
    split_ifs with free
    · exact serves_lineOp rfl rfl hc hl (run.trans (if_neg (not_not.2 free)))
    · exact serves_lineOp rfl rfl hc hl (run.trans (if_pos free))
  · exact serves_officeOp rfl rfl hc hl (runSetPreview_out out _ _)
  · refine serves_officeOp rfl rfl hc hl ((runSetPreview_eq named (on ▸ boolOf_toNat b) _ _).trans ?_)
    rw [if_pos factor, ready_packer]

end Sys2Proof.Machine
end

section
/-! PROOFS. The words of a camera by the state and the kind of their port (O42). -/

namespace Sys2Proof.Machine

/-! ## Words that a port does not hear (R77) -/

theorem delivers_iff (n : Unit8) (s : State) : delivers n s = true ↔ inReset s = false ∧ s.pins.lock[n] = true := by
  rw [delivers, Bool.and_eq_true, Bool.not_eq_true']
  rfl

theorem words_unheard {n : Unit8} {s : State} (deaf : delivers n s = false) (k : BitVec 16) (l : List (BitVec 14)) :
    takeFs n k s = s ∧ takeLn n l s = s ∧ takeFe n s = s := by
  simp [takeFs, takeLn, takeFe, deaf]

theorem words_shut {n : Unit8} {s : State} (shut : (s.port n).state = .disabled ∨ (s.port n).state = .unlocked)
    (k : BitVec 16) (l : List (BitVec 14)) : takeFs n k s = s ∧ takeLn n l s = s ∧ takeFe n s = s := by
  obtain state | state := shut <;> cases kind : (s.port n).kind <;> simp [takeFs, takeLn, takeFe, state, kind]

/-! ## FS (R82, R83) -/

/-- A port that has seen an FS with the counter `k` (R83). -/
def Port.seen (k : BitVec 16) (p : Port) : Port :=
  { p with
    lastCounter := some k
    counters := { p.counters with
      gaps := if ∃ c, p.lastCounter = some c ∧ c + 1 ≠ k then p.counters.gaps + 1 else p.counters.gaps } }

theorem lastCounter_gap (p : Port) (k : BitVec 16) :
    (p.lastCounter.any fun c => c + 1 != k) = true ↔ ∃ c, p.lastCounter = some c ∧ c + 1 ≠ k := by
  simp only [Option.any_eq_true, bne_iff_ne]

theorem gapCheck_eq (n : Unit8) (k : BitVec 16) (s : State) : gapCheck n k s = s.setPort n ((s.port n).seen k) := by
  have counted : (if (s.port n).lastCounter.any fun c => c + 1 != k then
      { (s.port n).counters with gaps := (s.port n).counters.gaps + 1 } else (s.port n).counters) =
      ((s.port n).seen k).counters := by
    unfold Port.seen
    split_ifs with any gap gap
    · rfl
    · exact absurd ((lastCounter_gap _ k).1 any) gap
    · exact absurd ((lastCounter_gap _ k).2 gap) any
    · rfl
  exact congrArg (fun c => s.setPort n { s.port n with lastCounter := some k, counters := c }) counted

theorem unsolicited_seen (n : Unit8) (k : BitVec 16) (s : State) : unsolicited n (gapCheck n k s) =
    s.setPort n { (s.port n).seen k with
      state := .draining
      counters := { ((s.port n).seen k).counters with unsolicited := ((s.port n).seen k).counters.unsolicited + 1 } } := by
  rw [gapCheck_eq, unsolicited, modPort, State.port_setPort, setPort_setPort]

/-- Beginning a context changes the packers alone. -/
theorem beginContext_rest (n : Unit8) (h : Handle) (s : State) :
    beginContext n h s = { s with packers := (beginContext n h s).packers } := by
  unfold beginContext
  split <;> rfl

/-- The port of an AREA frame that starts (R82). -/
def Port.receives (p : Port) : Port :=
  { p with state := .receiving, windowEnd := none, counters := { p.counters with started := p.counters.started + 1 } }

/-- The record of an AREA frame that starts (R82). -/
def FrameRecord.begun (k : BitVec 16) (r : FrameRecord) : FrameRecord :=
  { r with state := .filling, cameraCounter := some k, lines := 0 }

theorem startFrame_some {n : Unit8} {h : Handle} {s : State} (cur : (s.port n).current = some h) (k : BitVec 16) :
    startFrame n k s = beginContext n h (modPort n Port.receives (modRecord h (FrameRecord.begun k) s)) := by
  unfold startFrame
  rw [cur]
  rfl

theorem recordAt_modRecord_own (h : Handle) (f : FrameRecord → FrameRecord) (s : State) :
    recordAt (modRecord h f s) h = (recordAt s h).map f := by
  cases found : recordAt s h with
  | none => rw [modRecord_none _ found, found, Option.map_none]
  | some r => rw [recordAt_modRecord _ found, Option.map_some]

/-- The FS that an ARMED port awaits (R82, R83). -/
theorem startFrame_starts {n : Unit8} {h : Handle} {s : State} (cur : (s.port n).current = some h) (k : BitVec 16) :
    let t := startFrame n k s
    t.port n = (s.port n).receives ∧ recordAt t h = (recordAt s h).map (FrameRecord.begun k) ∧
      t.posu = s.posu ∧ t.itab = s.itab ∧ t.trgu = s.trgu ∧ t.rnu = s.rnu ∧ t.lnk = s.lnk ∧ t.fwd = s.fwd := by
  have record := recordAt_modRecord_own h (FrameRecord.begun k) s
  intro t
  have ends : t = startFrame n k s := rfl
  rw [startFrame_some cur, beginContext_rest, modRecord_rest] at ends
  rw [modRecord_rest] at record
  generalize (beginContext n h _).packers = packers at ends
  rw [ends, ← record]
  exact ⟨State.port_setPort (s.setFsto (modRecord h (FrameRecord.begun k) s).fsto) n _, rfl, rfl, rfl, rfl, rfl, rfl, rfl⟩

/-! ## Lines (R85, R87, R92, R93) -/

/-- A line of an AREA frame that has its lines is discarded, and the record is LONG (R87). -/
theorem takeAreaLine_long {n : Unit8} {h : Handle} {r : FrameRecord} {s : State} (cur : (s.port n).current = some h)
    (rec : recordAt s h = some r) (whole : (s.port n).lines ≤ linesReceived n s) (samples : List Nat) :
    takeAreaLine n samples s =
      (s.setSlot h.slot { gen := h.gen, record := some { r with flags := { r.flags with long := true } } }).setPort n
        { s.port n with counters := { (s.port n).counters with discarded := (s.port n).counters.discarded + 1 } } := by
  rw [takeAreaLine, if_neg (Nat.not_lt.2 whole), cur]
  simp only [modRecord, rec]
  rfl

/-! ## The words of a port that hears them -/

section
variable {n : Unit8} {s : State} (heard : delivers n s = true)
include heard

theorem words_scan (scan : (s.port n).kind = .scan) (k : BitVec 16) : takeFs n k s = s ∧ takeFe n s = s := by
  simp [takeFs, takeFe, heard, scan]

theorem takeFs_area (area : (s.port n).kind = .area) (k : BitVec 16) :
    ((s.port n).state = .idle ∨ (s.port n).state = .draining → takeFs n k s = unsolicited n (gapCheck n k s)) ∧
      ((s.port n).state = .armed → takeFs n k s = startFrame n k (gapCheck n k s)) ∧
      ((s.port n).state = .receiving → takeFs n k s = unsolicited n (endAreaFrame n true (gapCheck n k s))) := by
  unfold takeFs
  simp only [heard, area, Bool.not_true, Bool.false_eq_true, if_false]
  cases (s.port n).state <;> simp

theorem takeFe_area (area : (s.port n).kind = .area) :
    ((s.port n).state = .idle ∨ (s.port n).state = .armed → takeFe n s = stray n s) ∧
      ((s.port n).state = .receiving → takeFe n s = settleAs n .idle (endAreaFrame n false s)) ∧
      ((s.port n).state = .draining → takeFe n s = settleAs n .idle s) := by
  unfold takeFe
  simp only [heard, area, Bool.not_true, Bool.false_eq_true, if_false]
  cases (s.port n).state <;> simp

theorem takeLn_area (area : (s.port n).kind = .area) (l : List (BitVec 14)) :
    ((s.port n).state = .idle ∨ (s.port n).state = .armed → takeLn n l s = stray n s) ∧
      ((s.port n).state = .receiving →
        takeLn n l s = takeAreaLine n (l.map fun x => x.toNat % 2 ^ (s.port n).depth) s) := by
  unfold takeLn
  simp only [heard, area, Bool.not_true, Bool.false_eq_true, if_false]
  cases (s.port n).state <;> simp

theorem takeLn_scan_idle (scan : (s.port n).kind = .scan) (idle : (s.port n).state = .idle) (l : List (BitVec 14)) :
    takeLn n l s = unrequestedLine n s := by
  simp [takeLn, heard, scan, idle]

theorem takeLn_draining (draining : (s.port n).state = .draining) (l : List (BitVec 14)) :
    takeLn n l s = discardLine n s := by
  cases kind : (s.port n).kind <;> simp [takeLn, heard, draining, kind]

end

/-- A line that a SCAN window does not await (R92). -/
theorem takeScanLine_unrequested {n : Unit8} {s : State} (none : (s.chan n).window.any (·.outstanding) = false)
    (samples : List Nat) : takeScanLine n samples s = unrequestedLine n s :=
  if_neg (by rw [none]; decide)

/-- Settles O42: the words at a port that does not hear them, and then by the kind and the state of the port. -/
theorem cameraWordsByPortState : Obligations.CameraWordsByPortState := by
  intro n k l s p seen values
  have fs : exec (.fsWord n k) s = .next (takeFs n k s) := rfl
  have ln : exec (.lnWord n l) s = .next (takeLn n l s) := rfl
  have fe : exec (.feWord n) s = .next (takeFe n s) := rfl
  rw [fs, ln, fe]
  simp only [Host.Outcome.next.injEq]
  refine ⟨fun shut => ?_, fun run lock => ?_⟩
  · by_cases heard : delivers n s = true
    · obtain ⟨run, lock⟩ := (delivers_iff n s).1 heard
      rw [run, lock] at shut
      exact words_shut (by simpa using shut) k l
    · exact words_unheard (by simpa using heard) k l
  · have heard : delivers n s = true := (delivers_iff n s).2 ⟨run, lock⟩
    refine ⟨fun scan => ?_, fun area => ?_, fun draining => takeLn_draining heard draining l⟩
    · obtain ⟨noFs, noFe⟩ := words_scan heard scan k
      exact ⟨noFs, noFe, fun idle => takeLn_scan_idle heard scan idle l,
        fun receiving => takeLn_scan run lock scan receiving l,
        fun receiving none => (takeLn_scan run lock scan receiving l).trans (takeScanLine_unrequested none _)⟩
    · obtain ⟨fsRest, fsArmed, fsReceiving⟩ := takeFs_area heard area k
      obtain ⟨feEarly, feReceiving, feDraining⟩ := takeFe_area heard area
      obtain ⟨lnEarly, lnReceiving⟩ := takeLn_area heard area l
      refine ⟨fun rest => (fsRest rest).trans (unsolicited_seen n k s), fun armed h cur => ⟨_, fsArmed armed, ?_⟩,
        fun receiving => ⟨fsReceiving receiving, feReceiving receiving⟩, fun early => ⟨lnEarly early, feEarly early⟩,
        feDraining, fun receiving wanting => (lnReceiving receiving).trans (if_pos wanting),
        fun receiving whole h r cur rec => (lnReceiving receiving).trans (takeAreaLine_long cur rec whole _)⟩
      have port : (gapCheck n k s).port n = p.seen k := by rw [gapCheck_eq, State.port_setPort]
      have rest : gapCheck n k s = { s with ports := (gapCheck n k s).ports } := rfl
      have cur' : ((gapCheck n k s).port n).current = some h := (congrArg Port.current port).trans cur
      have starts := startFrame_starts cur' k
      rw [port, rest] at starts
      exact starts

end Sys2Proof.Machine
end

section
/-! PROOFS. What reports, notices and the end of a frame leave of the store, of FWD's image queues and of the views (for O41, O47
and O59). -/

namespace Sys2Proof.Machine

/-! ## The image side -/

/-- The store, and of FWD the image queues, the lanes, the auto-full policies and their skips. -/
def State.imagery (s : State) :=
  (s.fsto, s.fwd.pull, s.fwd.preview, s.fwd.fullLane, s.fwd.previewLane, s.fwd.autoFull, s.fwd.counters.autoFullSkipped)

theorem offerNotice_imagery (s : State) : (offerNotice s).imagery = s.imagery := by
  unfold offerNotice
  split <;> rfl

theorem setOffice_imagery (n : Notice) (s : State) : (setOffice n s).imagery = s.imagery := by
  unfold setOffice callOffice
  split
  · exact offerNotice_imagery _
  · rfl

theorem setBoth_imagery (n : Notice) (s : State) : (setBoth n s).imagery = s.imagery := setOffice_imagery n (setLine n s)

theorem queueMessage_imagery (type : Byte) (b : List Byte) (s : State) : (queueMessage type b s).imagery = s.imagery := by
  unfold queueMessage
  split
  · rfl
  · exact setOffice_imagery _ _

theorem completeIfSettled_imagery (n : Nat) (s : State) : (completeIfSettled n s).imagery = s.imagery := by
  unfold completeIfSettled
  split
  · rfl
  · split
    · exact queueMessage_imagery _ _ _
    · rfl

theorem report_imagery (n : Nat) (ch : Unit8) (r : Report) (s : State) : (report n ch r s).imagery = s.imagery :=
  completeIfSettled_imagery n _

theorem reportEnd_imagery (h : Handle) (s : State) : (reportEnd h s).imagery = s.imagery := by
  unfold reportEnd
  split
  · rfl
  · split
    · exact report_imagery _ _ _ s
    · rfl

/-! ## What the slots hold -/

/-- Every slot's generation, with what `p` reads of its record. -/
def State.readSlots {α : Type} (p : FrameRecord → α) (s : State) : Vector (BitVec 7 × Option α) 512 :=
  s.fsto.slots.map fun sl => (sl.gen, sl.record.map p)

section
variable {α : Type} {p : FrameRecord → α}

theorem readSlots_of_slots {s t : State} (same : t.fsto.slots = s.fsto.slots) : t.readSlots p = s.readSlots p := by
  unfold State.readSlots
  rw [same]

theorem readSlots_of_fsto {s t : State} (same : t.fsto = s.fsto) : t.readSlots p = s.readSlots p :=
  readSlots_of_slots (congrArg Fsto.slots same)

theorem readSlots_get (s : State) (i : Fin 512) :
    (s.readSlots p)[i] = (s.fsto.slots[i].gen, s.fsto.slots[i].record.map p) := by
  simp only [State.readSlots, Fin.getElem_fin, Vector.getElem_map]

theorem readSlots_setSlot (s : State) (i : Fin 512) (sl : Slot) :
    (s.setSlot i sl).readSlots p = (s.readSlots p).set i (sl.gen, sl.record.map p) := by
  unfold State.readSlots State.setSlot
  exact Vector.map_set

/-- What `p` reads of the record of a handle stands in what it reads of the slots. -/
theorem readSlots_recordAt {s t : State} (same : t.readSlots p = s.readSlots p) (h : Handle) :
    (recordAt t h).map p = (recordAt s h).map p := by
  have slot : (t.readSlots p)[h.slot] = (s.readSlots p)[h.slot] := by rw [same]
  rw [readSlots_get, readSlots_get, Prod.mk.injEq] at slot
  obtain ⟨gen, record⟩ := slot
  unfold recordAt
  rw [gen]
  split
  · exact record
  · rfl

theorem setSlot_own {s : State} {h : Handle} {r : FrameRecord} (rec : recordAt s h = some r) :
    s.setSlot h.slot { gen := h.gen, record := some r } = s := by
  obtain ⟨gen, record⟩ := gen_of_recordAt rec
  have same : ({ gen := h.gen, record := some r } : Slot) = s.fsto.slots[h.slot] := by rw [← gen, ← record]
  simp [State.setSlot, same]

theorem modRecord_some {s : State} {h : Handle} {r : FrameRecord} (rec : recordAt s h = some r)
    (f : FrameRecord → FrameRecord) : modRecord h f s = s.setSlot h.slot { gen := h.gen, record := some (f r) } := by
  unfold modRecord
  rw [rec]

/-- A change of the record of a handle that leaves what `p` reads of it. -/
theorem modRecord_readSlots {h : Handle} {f : FrameRecord → FrameRecord} {s : State}
    (keep : ∀ r, recordAt s h = some r → p (f r) = p r) : (modRecord h f s).readSlots p = s.readSlots p := by
  cases rec : recordAt s h with
  | none => rw [modRecord_none f rec]
  | some r =>
    have own := readSlots_setSlot (p := p) s h.slot { gen := h.gen, record := some r }
    rw [setSlot_own rec] at own
    rw [modRecord_some rec, readSlots_setSlot, own, Option.map_some, Option.map_some, keep r rec]
    exact Vector.ext fun i _ => by simp [Vector.getElem_set]

end

/-! ## The pull load -/

/-- A slot's record awaits its pull, in what is read of the full states. -/
def awaits (x : BitVec 7 × Option FullState) : Bool := decide (x.2 = some .await)

theorem slotTable_slots (s : State) : (slotTable s).map (·.2) = s.fsto.slots.toList :=
  List.map_snd_zip (by simp)

theorem awaitCount_slots (s : State) :
    awaitCount s = s.fsto.slots.toList.countP fun sl => sl.record.any fun r => decide (r.fullState = .await) := by
  have holds : (fun x : Fin 512 × Slot => x.2.holds fun r => decide (r.fullState = .await)) =
      (fun sl : Slot => sl.record.any fun r => decide (r.fullState = .await)) ∘ (·.2) := by
    funext x
    unfold Slot.holds
    cases rec : x.2.record <;> simp [rec]
  rw [awaitCount, handlesWhere, List.length_map, ← List.countP_eq_length_filter, holds, ← List.countP_map, slotTable_slots]

theorem awaitCount_read (s : State) : awaitCount s = (s.readSlots FrameRecord.fullState).toList.countP awaits := by
  rw [awaitCount_slots, State.readSlots, Vector.toList_map, List.countP_map]
  refine List.countP_congr fun sl _ => ?_
  cases rec : sl.record <;> simp [rec, awaits]

theorem pullLoad_congr {s t : State} (pull : t.fwd.pull = s.fwd.pull)
    (read : t.readSlots FrameRecord.fullState = s.readSlots FrameRecord.fullState) : pullLoad t = pullLoad s := by
  rw [pullLoad, pullLoad, awaitCount_read, awaitCount_read, pull, read]

/-! ## The end work (R123, R179, R182) -/

/-- The preview part of a record goes out at its end (R123 step 3). -/
abbrev FrameRecord.showsPreview (r : FrameRecord) : Prop := r.preview ≠ none ∧ r.previewBlocks ≠ []

/-- The policy of a record's port has its full part queued at its end (R182). -/
abbrev FrameRecord.autoDue (r : FrameRecord) (s : State) : Prop :=
  r.fullState = .none ∧
    (s.fwd.autoFull[r.port] = .all ∨ (s.fwd.autoFull[r.port] = .onReject ∧ r.copy = .reject))

/-- The full part of a record joins the pull queue at its end (R123 step 4, R182). -/
abbrev FrameRecord.joinsPull (r : FrameRecord) (s : State) : Prop :=
  r.fullState = .await ∨ (r.autoDue s ∧ pullLoad s < 64)

theorem recordAt_setFwd {s : State} {h : Handle} {r : FrameRecord} (rec : recordAt s h = some r) (f : Fwd) :
    recordAt (s.setFwd f) h = some r := rec

/-- A record with its preview part settled. -/
def FrameRecord.previewSettled (r : FrameRecord) : FrameRecord :=
  { r with previewState := if r.showsPreview then .queued else .skipped }

theorem settlePreview_some {h : Handle} {s : State} {r : FrameRecord} (rec : recordAt s h = some r) : settlePreview h s =
    (s.setFwd { s.fwd with preview := s.fwd.preview ++ if r.showsPreview then [{ handle := h }] else [] }).setSlot h.slot
      { gen := h.gen, record := some r.previewSettled } := by
  have shows : (r.preview.isSome && !r.previewBlocks.isEmpty) = true ↔ r.showsPreview := by
    simp [FrameRecord.showsPreview, Option.isSome_iff_ne_none]
  unfold settlePreview FrameRecord.previewSettled
  rw [rec]
  dsimp only
  by_cases queued : r.showsPreview
  · rw [if_pos (shows.2 queued), if_pos queued, if_pos queued]
    exact modRecord_some (recordAt_setFwd rec _) _
  · rw [if_neg (mt shows.1 queued), if_neg queued, if_neg queued, List.append_nil]
    exact modRecord_some rec _

theorem joinPull_some {h : Handle} {s : State} {r : FrameRecord} (rec : recordAt s h = some r) : joinPull h s =
    (s.setFwd { s.fwd with pull := s.fwd.pull ++ [{ handle := h }] }).setSlot h.slot
      { gen := h.gen, record := some { r with fullState := .queued } } :=
  modRecord_some (recordAt_setFwd rec _) _

/-- The entry of the policies that a full pull queue has them pass over (R182). -/
def autoSkipped (s : State) : State :=
  setOffice .autoFullSkipped
    (s.setFwd { s.fwd with counters := { s.fwd.counters with autoFullSkipped := s.fwd.counters.autoFullSkipped + 1 } })

theorem autoDue_iff {h : Handle} {s : State} {r : FrameRecord} (rec : recordAt s h = some r) (ended : r.state.finished = true) :
    autoDue s true h = true ↔ r.autoDue s := by
  unfold Machine.autoDue FrameRecord.autoDue
  rw [rec]
  simp only [ended, Bool.true_and, Bool.and_eq_true, decide_eq_true_eq]
  refine and_congr_right fun _ => ?_
  cases s.fwd.autoFull[r.port] <;> simp

/-- The full part of a record that ends: pulled, skipped with its notice, or left as it stands. -/
theorem fullSettled_eq {h : Handle} {s : State} {r : FrameRecord} (rec : recordAt s h = some r) (ended : r.state.finished = true) :
    applyAutoFull true h (handOverPull h s) =
      if r.joinsPull s then joinPull h s else if r.autoDue s then autoSkipped s else s := by
  have handed : handOverPull h s = if r.fullState = .await then joinPull h s else s := by
    unfold handOverPull
    rw [rec]
  by_cases await : r.fullState = .await
  · have joined : recordAt (joinPull h s) h = some { r with fullState := .queued } := 
      recordAt_modRecord _ (recordAt_setFwd rec _)
    have due : ¬autoDue (joinPull h s) true h = true := by
      rw [autoDue_iff joined ended]
      exact fun due => nomatch due.1
    rw [handed, if_pos await, if_pos (.inl await)]
    exact if_neg due
  · rw [handed, if_neg await, applyAutoFull]
    by_cases due : r.autoDue s
    · rw [if_pos ((autoDue_iff rec ended).2 due), if_pos due]
      exact if_congr ⟨fun low => .inr ⟨due, low⟩, fun joins => (joins.resolve_left await).2⟩ rfl rfl
    · rw [if_neg (mt (autoDue_iff rec ended).1 due), if_neg due, if_neg fun joins => joins.elim await fun auto => due auto.1]

/-- A record after its end work, done in the state `s`. -/
def FrameRecord.worked (r : FrameRecord) (s : State) : FrameRecord :=
  { r.previewSettled with fullState := if r.joinsPull s then .queued else r.fullState }

/-- The image side after the end work of a record in the store `f`: its slot, and what joins the queues or is passed over. -/
def imageryWorked (f : Fsto) (h : Handle) (r : FrameRecord) (s : State) :=
  ({ f with slots := f.slots.set h.slot { gen := h.gen, record := some (r.worked s) } },
    s.fwd.pull ++ (if r.joinsPull s then [({ handle := h } : ImageEntry)] else []),
    s.fwd.preview ++ (if r.showsPreview then [({ handle := h } : ImageEntry)] else []),
    s.fwd.fullLane, s.fwd.previewLane, s.fwd.autoFull,
    if r.autoDue s ∧ 64 ≤ pullLoad s then s.fwd.counters.autoFullSkipped + 1 else s.fwd.counters.autoFullSkipped)

theorem previewSettled_joins {h : Handle} {s t : State} {r : FrameRecord} (rec : recordAt s h = some r)
    (imagery : t.imagery = s.imagery) :
    (r.previewSettled.joinsPull (settlePreview h t) ↔ r.joinsPull s) ∧
      (r.previewSettled.autoDue (settlePreview h t) ↔ r.autoDue s) ∧ pullLoad (settlePreview h t) = pullLoad s := by
  simp only [State.imagery, Prod.mk.injEq] at imagery
  obtain ⟨fsto, pull, -, -, -, auto, -⟩ := imagery
  have rec' : recordAt t h = some r := (recordAt_of_fsto fsto h).trans rec
  have load : pullLoad (settlePreview h t) = pullLoad s := by
    refine pullLoad_congr ((congrArg (fun x : State => x.fwd.pull) (settlePreview_some rec')).trans pull) ?_
    rw [← readSlots_of_fsto fsto, settlePreview]
    rw [rec']
    dsimp only
    split <;> exact modRecord_readSlots fun _ _ => rfl
  have policy : (settlePreview h t).fwd.autoFull = s.fwd.autoFull :=
    (congrArg (fun x : State => x.fwd.autoFull) (settlePreview_some rec')).trans auto
  have due : r.previewSettled.autoDue (settlePreview h t) ↔ r.autoDue s := by
    unfold FrameRecord.autoDue
    rw [policy]
    exact Iff.rfl
  refine ⟨or_congr Iff.rfl (and_congr due ?_), due, load⟩
  rw [load]

/-- The end work of a record that has ended, on the image side (R123, R179, R182). -/
theorem endWork_imagery {h : Handle} {s : State} {r : FrameRecord} (rec : recordAt s h = some r)
    (ended : r.state.finished = true) : (endWork h s).imagery = imageryWorked s.fsto h r s := by
  have imagery := reportEnd_imagery h s
  obtain ⟨joins, due, load⟩ := previewSettled_joins rec imagery
  unfold endWork
  generalize reportEnd h s = t at *
  simp only [State.imagery, Prod.mk.injEq] at imagery
  obtain ⟨fsto, pull, preview, fullLane, previewLane, auto, skipped⟩ := imagery
  have rec' : recordAt t h = some r := (recordAt_of_fsto fsto h).trans rec
  have settled : recordAt (settlePreview h t) h = some r.previewSettled := by
    rw [settlePreview_some rec', recordAt, slots_setSlot, if_pos rfl, if_pos rfl]
  rw [fullSettled_eq settled ended, if_congr joins rfl (if_congr due rfl rfl), joinPull_some settled]
  have skips : (autoSkipped (settlePreview h t)).imagery = (let u := settlePreview h t
      (u.fsto, u.fwd.pull, u.fwd.preview, u.fwd.fullLane, u.fwd.previewLane, u.fwd.autoFull,
        u.fwd.counters.autoFullSkipped + 1)) := setOffice_imagery _ _
  have placed := settlePreview_some rec'
  unfold imageryWorked FrameRecord.worked
  by_cases join : r.joinsPull s
  · have pass : ¬(r.autoDue s ∧ 64 ≤ pullLoad s) := fun full => join.elim
      (fun await => nomatch await.symm.trans full.1.1) fun auto => Nat.not_lt.2 full.2 auto.2
    rw [if_pos join, if_pos join, if_pos join, if_neg pass, placed,
      ← fsto, ← pull, ← preview, ← fullLane, ← previewLane, ← auto, ← skipped]
    simp only [State.imagery, State.setSlot, State.setFwd, Vector.set_set]
  · rw [if_neg join, if_neg join, if_neg join, List.append_nil]
    by_cases policy : r.autoDue s
    · have skip : r.autoDue s ∧ 64 ≤ pullLoad s := ⟨policy, Nat.not_lt.1 fun low => join (.inr ⟨policy, low⟩)⟩
      rw [if_pos policy, if_pos (c := r.autoDue s ∧ _) skip, skips, placed,
        ← fsto, ← pull, ← preview, ← fullLane, ← previewLane, ← auto, ← skipped]
      rfl
    · have pass : ¬(r.autoDue s ∧ 64 ≤ pullLoad s) := fun full => policy full.1
      rw [if_neg policy, if_neg (c := r.autoDue s ∧ _) pass, placed,
        ← fsto, ← pull, ← preview, ← fullLane, ← previewLane, ← auto, ← skipped]
      rfl

/-! ## The end of a frame (R98, R121, R123) -/

/-- A record that ends, before its end work. -/
def FrameRecord.ended (final : RecordState) (stamp : Stamp) (r : FrameRecord) : FrameRecord :=
  { r with state := final, endStamp := some stamp }

theorem joinsPull_congr {r r' : FrameRecord} {s t : State} (same : r'.fullState = r.fullState ∧ r'.port = r.port ∧ r'.copy = r.copy)
    (auto : t.fwd.autoFull = s.fwd.autoFull) (load : pullLoad t = pullLoad s) :
    (r'.joinsPull t ↔ r.joinsPull s) ∧ (r'.autoDue t ↔ r.autoDue s) := by
  obtain ⟨full, port, copy⟩ := same
  unfold FrameRecord.joinsPull FrameRecord.autoDue
  simp only [auto, load, full, port, copy, and_self]

/-- Of the state the end work reads FWD's image side and the pull load. -/
theorem imageryWorked_congr {s t : State} (load : pullLoad t = pullLoad s) (fwd : t.imagery.2 = s.imagery.2) (f : Fsto)
    (h : Handle) (r : FrameRecord) : imageryWorked f h r t = imageryWorked f h r s := by
  simp only [State.imagery, Prod.mk.injEq] at fwd
  obtain ⟨pull, preview, fullLane, previewLane, auto, skipped⟩ := fwd
  obtain ⟨joins, due⟩ := joinsPull_congr (r := r) ⟨rfl, rfl, rfl⟩ auto load
  unfold imageryWorked FrameRecord.worked
  simp only [joins, due, load, pull, preview, fullLane, previewLane, auto, skipped]

/-- The state with a record that has ended, and its handle on the age list, before its end work. -/
def agedState (h : Handle) (final : RecordState) (s : State) : State :=
  (finished h final s).setFsto { (finished h final s).fsto with age := (finished h final s).fsto.age ++ [h] }

theorem endRecord_aged {h : Handle} {s : State} {r : FrameRecord} (rec : recordAt s h = some r) (final : RecordState) :
    endRecord h final s = endWork h (agedState h final s) := endRecord_some rec final

section
variable {h : Handle} {s : State} {r : FrameRecord} (rec : recordAt s h = some r) (final : RecordState)
include rec

theorem agedState_eq : agedState h final s = (s.setFsto { s.fsto with age := s.fsto.age ++ [h] }).setSlot h.slot
    { gen := h.gen, record := some (r.ended final s.stamp) } := by
  rw [agedState, finished, modRecord_some rec]
  rfl

theorem agedState_record : recordAt (agedState h final s) h = some (r.ended final s.stamp) := by
  rw [agedState_eq rec, recordAt, slots_setSlot, if_pos rfl, if_pos rfl]

theorem agedState_load : pullLoad (agedState h final s) = pullLoad s := by
  have ages (u : State) (l : List Handle) :
      (u.setFsto { u.fsto with age := l }).readSlots FrameRecord.fullState = u.readSlots FrameRecord.fullState :=
    readSlots_of_slots rfl
  have pull : (agedState h final s).fwd.pull = s.fwd.pull := by
    rw [agedState_eq rec]
    rfl
  refine pullLoad_congr pull ?_
  rw [agedState, ages]
  exact modRecord_readSlots fun _ _ => rfl

/-- A record becomes COMPLETE or TRUNCATED, on the image side (R121, R123). -/
theorem endRecord_imagery {final : RecordState} (ended : final.finished = true) : (endRecord h final s).imagery =
    imageryWorked { s.fsto with age := s.fsto.age ++ [h] } h (r.ended final s.stamp) s := by
  have fwd : (agedState h final s).imagery.2 = s.imagery.2 := by
    rw [agedState_eq rec]
    rfl
  have fsto : (agedState h final s).fsto = { s.fsto with
      age := s.fsto.age ++ [h]
      slots := s.fsto.slots.set h.slot { gen := h.gen, record := some (r.ended final s.stamp) } } := by
    rw [agedState_eq rec]
    rfl
  rw [endRecord_aged rec, endWork_imagery (agedState_record rec final) ended,
    imageryWorked_congr (agedState_load rec final) fwd, fsto]
  simp only [imageryWorked, Vector.set_set]

end

theorem reportEnd_itab {h : Handle} {s : State} {r : FrameRecord} (rec : recordAt s h = some r) : (reportEnd h s).itab =
    (if r.item ≠ 0 ∧ r.copy = .none then report r.item r.port (if r.state = .complete then .completed else .truncated) s
      else s).itab := by
  have live : r.live = true ↔ r.item ≠ 0 ∧ r.copy = .none := by simp [FrameRecord.live]
  unfold reportEnd
  rw [rec]
  exact congrArg State.itab (if_congr live rfl rfl)

theorem endWork_itab (h : Handle) (s : State) : (endWork h s).itab = (reportEnd h s).itab := by
  have bench : (endWork h s).bench = (reportEnd h s).bench := by
    rw [endWork, applyAutoFull_bench, handOverPull_bench, settlePreview_bench]
  simp only [State.bench, Prod.mk.injEq] at bench
  exact bench.1

/-- Of the items the end of a record makes its report (R123 step 2). -/
theorem endRecord_itab {h : Handle} {s : State} {r : FrameRecord} (rec : recordAt s h = some r) (final : RecordState) :
    (endRecord h final s).itab =
      (if r.item ≠ 0 ∧ r.copy = .none then report r.item r.port (if final = .complete then .completed else .truncated) s
        else s).itab := by
  have itab : (agedState h final s).itab = s.itab := by
    rw [agedState_eq rec]
    rfl
  rw [endRecord_aged rec, endWork_itab, reportEnd_itab (agedState_record rec final), apply_ite State.itab, apply_ite State.itab]
  exact if_congr Iff.rfl (report_itab_congr itab _ _ _) itab

/-- The preview rows that the end of a context writes for a frame: a row begun is written (R111). -/
def FrameContext.rowLeft (h : Handle) (c : Option FrameContext) : Bool :=
  c.any fun c => decide (c.handle = h) && decide (0 < c.rows)

/-- A record whose context ends. -/
def FrameRecord.contextEnded (h : Handle) (c : Option FrameContext) (r : FrameRecord) : FrameRecord :=
  { r with previewLines := r.previewLines + if FrameContext.rowLeft h c = true then 1 else 0 }

theorem writePreviewLine_record (n : Unit8) (ctx : FrameContext) (s : State) (h : Handle) :
    recordAt (writePreviewLine n ctx s) h = (recordAt s h).map fun r =>
      { r with previewLines := r.previewLines + if ctx.handle = h then 1 else 0 } := by
  unfold writePreviewLine
  by_cases own : ctx.handle = h
  · subst own
    cases rec : recordAt s ctx.handle with
    | none => rw [Option.map_none, rec]
    | some r =>
      dsimp only
      rw [if_pos rfl]
      exact recordAt_modRecord (s := s.setFsto _) _ rec
  · rw [if_neg own]
    cases rec : recordAt s ctx.handle with
    | none => exact Option.map_id'.symm
    | some r => exact (recordAt_modRecord_other _ (Ne.symm own)).trans Option.map_id'.symm

theorem endContext_record (n : Unit8) (s : State) (h : Handle) :
    recordAt (endContext n s) h = (recordAt s h).map (FrameRecord.contextEnded h (s.packer n).context) := by
  unfold endContext FrameRecord.contextEnded FrameContext.rowLeft
  cases ctx : (s.packer n).context with
  | none => exact Option.map_id'.symm
  | some c =>
    dsimp only
    by_cases rows : 0 < c.rows
    · rw [if_pos rows]
      refine (writePreviewLine_record n c s h).trans ?_
      simp [rows]
    · rw [if_neg rows]
      simp [rows]
      rfl

/-- Ending a context changes the packers and the store alone. -/
theorem endContext_rest (n : Unit8) (s : State) :
    endContext n s = { s with packers := (endContext n s).packers, fsto := (endContext n s).fsto } := by
  have written (ctx : FrameContext) : writePreviewLine n ctx s = s.setFsto (writePreviewLine n ctx s).fsto := by
    unfold writePreviewLine
    split
    · rfl
    · rw [modRecord_rest]
      rfl
  unfold endContext
  split
  · rfl
  · dsimp only
    split
    · rw [written]
      rfl
    · rfl

/-- The packer gives up its context (R98). -/
theorem endContext_packer (n m : Unit8) (s : State) : (endContext n s).packer m =
    if m = n then { s.packer n with context := none } else s.packer m := by
  have written (ctx : FrameContext) : (writePreviewLine n ctx s).packers = s.packers := by
    unfold writePreviewLine
    split
    · rfl
    · rw [modRecord_rest]
      rfl
  have ends (u : State) (same : u.packers = s.packers) :
      (u.setPacker n { u.packer n with context := none }).packer m =
        if m = n then { s.packer n with context := none } else s.packer m := by
    have packer (k : Unit8) : u.packer k = s.packer k := congrArg (fun x : Vector Packer 8 => x[k]) same
    split_ifs with own
    · rw [own, State.packer_setPacker, packer]
    · rw [State.packer_setPacker_ne _ _ (Ne.symm own), packer]
  unfold endContext
  cases ctx : (s.packer n).context with
  | none =>
    dsimp only
    split_ifs with own
    · rw [own, ← ctx]
    · rfl
  | some c =>
    dsimp only
    split
    · exact ends _ (written c)
    · exact ends _ rfl

theorem frameLet_record (n : Unit8) (h : Handle) (mark : FrameFlags → FrameFlags) {s : State} {r : FrameRecord}
    (rec : recordAt s h = some r) : recordAt (frameLet n h mark s) h =
      some { r.contextEnded h (s.packer n).context with flags := mark r.flags } := by
  have ended : recordAt (endContext n s) h = some (r.contextEnded h (s.packer n).context) := by
    rw [endContext_record, rec, Option.map_some]
  exact recordAt_modRecord _ ended

/-- A port that gives its frame up changes the ports, the packers and the store alone. -/
theorem frameLet_rest (n : Unit8) (h : Handle) (mark : FrameFlags → FrameFlags) (s : State) : frameLet n h mark s =
    { s with ports := (frameLet n h mark s).ports, packers := (frameLet n h mark s).packers, fsto := (frameLet n h mark s).fsto } := by
  unfold frameLet
  rw [modRecord_rest, endContext_rest]
  rfl

section
variable {α : Type} {p : FrameRecord → α} (marks : ∀ r flags, p { r with flags := flags } = p r)
  (lines : ∀ r lines, p { r with previewLines := lines } = p r)
include lines

theorem endContext_readSlots (n : Unit8) (s : State) : (endContext n s).readSlots p = s.readSlots p := by
  have written (ctx : FrameContext) : (writePreviewLine n ctx s).readSlots p = s.readSlots p := by
    unfold writePreviewLine
    split
    · rfl
    · exact (modRecord_readSlots fun r _ => lines r _).trans (readSlots_of_slots rfl)
  unfold endContext
  split
  · rfl
  · dsimp only
    split
    · exact (readSlots_of_slots rfl).trans (written _)
    · rfl

include marks in
theorem frameLet_readSlots (n : Unit8) (h : Handle) (mark : FrameFlags → FrameFlags) (s : State) :
    (frameLet n h mark s).readSlots p = s.readSlots p :=
  ((readSlots_of_slots rfl).trans (modRecord_readSlots fun r _ => marks r _)).trans (endContext_readSlots lines n s)

end

/-- A record whose port gives it up, with its end. -/
def FrameRecord.letGo (h : Handle) (c : Option FrameContext) (mark : FrameFlags → FrameFlags) (final : RecordState)
    (stamp : Stamp) (r : FrameRecord) : FrameRecord :=
  FrameRecord.ended final stamp { r.contextEnded h c with flags := mark r.flags }

/-- The state in which the record of a port's frame ends (R98, R118, R121). -/
def frameLeft (n : Unit8) (h : Handle) (final : RecordState) (mark : FrameFlags → FrameFlags) (s : State) : State :=
  if final = .truncated .storeFull then setBoth .storeFull (frameLet n h mark s) else frameLet n h mark s

section
variable {n : Unit8} {h : Handle} {final : RecordState} {mark : FrameFlags → FrameFlags} {s : State} {r : FrameRecord}

theorem frameLeft_imagery : (frameLeft n h final mark s).imagery = (frameLet n h mark s).imagery := by
  unfold frameLeft
  split
  · exact setBoth_imagery _ _
  · rfl

theorem frameLeft_fsto : (frameLeft n h final mark s).fsto = (frameLet n h mark s).fsto := congrArg Prod.fst frameLeft_imagery

theorem frameLeft_record (rec : recordAt s h = some r) : recordAt (frameLeft n h final mark s) h =
    some { r.contextEnded h (s.packer n).context with flags := mark r.flags } :=
  (recordAt_of_fsto frameLeft_fsto h).trans (frameLet_record n h mark rec)

theorem frameLeft_forwards : (frameLeft n h final mark s).imagery.2 = s.imagery.2 := by
  rw [frameLeft_imagery, frameLet_rest]
  rfl

theorem frameLeft_load : pullLoad (frameLeft n h final mark s) = pullLoad s := by
  have forwards := frameLeft_forwards (n := n) (h := h) (final := final) (mark := mark) (s := s)
  simp only [State.imagery, Prod.mk.injEq] at forwards
  refine pullLoad_congr forwards.1 ?_
  exact (readSlots_of_fsto frameLeft_fsto).trans (frameLet_readSlots (fun _ _ => rfl) (fun _ _ => rfl) n h mark s)

theorem frameLeft_stamp : (frameLeft n h final mark s).stamp = s.stamp := by
  unfold frameLeft
  rw [← frameLet_stamp n h mark s, setBoth_rest]
  split <;> rfl

theorem endFrame_left (cur : (s.port n).current = some h) :
    endFrame n final mark s = endRecord h final (frameLeft n h final mark s) := endFrame_of_current cur final mark

/-- The end of a port's frame, on the image side (R98, R121, R123). -/
theorem endFrame_imagery (cur : (s.port n).current = some h) (rec : recordAt s h = some r) (ended : final.finished = true) :
    (endFrame n final mark s).imagery = imageryWorked { (frameLet n h mark s).fsto with age := s.fsto.age ++ [h] } h
      (r.letGo h (s.packer n).context mark final s.stamp) s := by
  have age : (frameLet n h mark s).fsto.age = s.fsto.age := (frameLet_fstoKept n h mark s).age
  rw [endFrame_left cur, endRecord_imagery (frameLeft_record rec) ended, imageryWorked_congr frameLeft_load frameLeft_forwards,
    frameLeft_fsto, age, frameLeft_stamp]
  rfl

theorem endFrame_packer (cur : (s.port n).current = some h) (m : Unit8) : (endFrame n final mark s).packer m =
    if m = n then { s.packer n with context := none } else s.packer m := by
  have front : (endFrame n final mark s).front = (frameLet n h mark s).front := by
    rw [endFrame_of_current cur]
    refine (endRecord_front _ _ _).trans ?_
    split
    · exact setBoth_front _ _
    · rfl
  have marked : (frameLet n h mark s).packer m = (endContext n s).packer m :=
    congrArg (fun x : Trgu × Vector Port 8 × Vector Packer 8 => x.2.2[m]) (modRecord_front h _ (endContext n s))
  exact (congrArg (fun x : Trgu × Vector Port 8 × Vector Packer 8 => x.2.2[m]) front).trans
    (marked.trans (endContext_packer n m s))

/-- Of the items the end of a frame makes the one report of its record (R123 step 2). -/
theorem endFrame_itab (cur : (s.port n).current = some h) (rec : recordAt s h = some r) :
    (endFrame n final mark s).itab = (if r.item ≠ 0 ∧ r.copy = .none then
      report r.item r.port (if final = .complete then .completed else .truncated) s else s).itab := by
  have itab : (frameLeft n h final mark s).itab = s.itab := by
    unfold frameLeft
    split
    · rw [setBoth_rest, frameLet_rest]
    · rw [frameLet_rest]
  rw [endFrame_left cur, endRecord_itab (frameLeft_record rec) final, apply_ite State.itab, apply_ite State.itab, itab]
  exact if_congr Iff.rfl (report_itab_congr itab _ _ _) rfl

end

/-! ## The views (R194, R197) -/

theorem view_or {v k : NoticeSet} (h : v &&& k = k) (m : NoticeSet) : (v ||| m) &&& k = k := by
  ext i hi
  have bit := congrArg (fun b => b[i]) h
  simp only [BitVec.getElem_and, BitVec.getElem_or] at bit ⊢
  grind

theorem view_or_self (v k : NoticeSet) : (v ||| k) &&& k = k := by
  rw [BitVec.or_comm]
  exact view_or (BitVec.and_self) v

/-- From `s` to `t` no view loses a flag. -/
structure ViewsGrow (s t : State) : Prop where
  line : ∀ k, s.rnu.lineView &&& k = k → t.rnu.lineView &&& k = k
  office : ∀ k, s.rnu.officeView &&& k = k → t.rnu.officeView &&& k = k

theorem ViewsGrow.of_rnu {s t : State} (same : t.rnu = s.rnu) : ViewsGrow s t := by
  constructor <;> rw [same] <;> exact fun _ => id

theorem ViewsGrow.trans {a b c : State} (h : ViewsGrow a b) (k : ViewsGrow b c) : ViewsGrow a c :=
  ⟨fun m hm => k.line m (h.line m hm), fun m hm => k.office m (h.office m hm)⟩

/-- `ViewsGrow.trans` read from the last operation back. -/
theorem ViewsGrow.before {a b c : State} (k : ViewsGrow b c) (h : ViewsGrow a b) : ViewsGrow a c := h.trans k

theorem setOffice_sets (n : Notice) (s : State) : (setOffice n s).rnu.officeView &&& n.bit = n.bit := by
  obtain ⟨k, office, -⟩ := setOffice_officeView n s
  rw [office]
  exact view_or (view_or_self _ _) k

theorem setBoth_sets (n : Notice) (s : State) :
    (setBoth n s).rnu.lineView &&& n.bit = n.bit ∧ (setBoth n s).rnu.officeView &&& n.bit = n.bit := by
  rw [setBoth_lineView]
  exact ⟨view_or_self _ _, setOffice_sets n (setLine n s)⟩

theorem setOffice_viewsGrow (n : Notice) (s : State) : ViewsGrow s (setOffice n s) := by
  refine ⟨fun k hk => by rwa [setOffice_lineView], fun k hk => ?_⟩
  obtain ⟨m, office, -⟩ := setOffice_officeView n s
  rw [office]
  exact view_or (view_or hk _) m

theorem setBoth_viewsGrow (n : Notice) (s : State) : ViewsGrow s (setBoth n s) :=
  ViewsGrow.trans (b := setLine n s) ⟨fun _ hk => view_or hk _, fun _ => id⟩ (setOffice_viewsGrow n _)

theorem queueMessage_viewsGrow (type : Byte) (b : List Byte) (s : State) : ViewsGrow s (queueMessage type b s) := by
  unfold queueMessage
  split
  · exact .of_rnu rfl
  · exact (setOffice_viewsGrow _ _).before (.of_rnu rfl)

theorem report_viewsGrow (n : Nat) (ch : Unit8) (r : Report) (s : State) : ViewsGrow s (report n ch r s) := by
  have complete (u : State) : ViewsGrow u (completeIfSettled n u) := by
    unfold completeIfSettled
    split
    · exact .of_rnu rfl
    · split
      · exact (queueMessage_viewsGrow _ _ _).before (.of_rnu rfl)
      · exact .of_rnu rfl
  exact (complete (modItem n (fun it => it.apply ch r) s)).before (.of_rnu rfl)

theorem modRecord_rnu (h : Handle) (f : FrameRecord → FrameRecord) (s : State) : (modRecord h f s).rnu = s.rnu := by
  rw [modRecord_rest]
  rfl

theorem joinPull_rnu (h : Handle) (s : State) : (joinPull h s).rnu = s.rnu := modRecord_rnu h _ _

theorem reportEnd_viewsGrow (h : Handle) (s : State) : ViewsGrow s (reportEnd h s) := by
  unfold reportEnd
  split
  · exact .of_rnu rfl
  · split
    · exact report_viewsGrow _ _ _ _
    · exact .of_rnu rfl

theorem settlePreview_rnu (h : Handle) (s : State) : (settlePreview h s).rnu = s.rnu := by
  unfold settlePreview
  split
  · rfl
  · split <;> exact modRecord_rnu _ _ _

theorem handOverPull_rnu (h : Handle) (s : State) : (handOverPull h s).rnu = s.rnu := by
  unfold handOverPull
  split
  · rfl
  · split
    · exact joinPull_rnu h s
    · rfl

theorem applyAutoFull_viewsGrow (atEnd : Bool) (h : Handle) (s : State) : ViewsGrow s (applyAutoFull atEnd h s) := by
  unfold applyAutoFull
  split
  · split
    · exact .of_rnu (joinPull_rnu h s)
    · exact (setOffice_viewsGrow _ _).before (.of_rnu rfl)
  · exact .of_rnu rfl

theorem endWork_viewsGrow (h : Handle) (s : State) : ViewsGrow s (endWork h s) := by
  have handed : (handOverPull h (settlePreview h (reportEnd h s))).rnu = (reportEnd h s).rnu := by
    rw [handOverPull_rnu, settlePreview_rnu]
  exact (reportEnd_viewsGrow h s).trans ((ViewsGrow.of_rnu handed).trans (applyAutoFull_viewsGrow true h _))

theorem endRecord_viewsGrow (h : Handle) (final : RecordState) (s : State) : ViewsGrow s (endRecord h final s) := by
  cases rec : recordAt s h with
  | none =>
    rw [endRecord_none rec]
    exact .of_rnu rfl
  | some r =>
    rw [endRecord_aged rec]
    exact (endWork_viewsGrow h _).before (.of_rnu (modRecord_rnu h _ s))

section
variable {n : Unit8} {h : Handle} {final : RecordState} {mark : FrameFlags → FrameFlags} {s : State} {r : FrameRecord}

/-- A truncation for a full store sets its notice in both views (R118). -/
theorem endFrame_storeFull (cur : (s.port n).current = some h) : let t := endFrame n (.truncated .storeFull) mark s
    t.rnu.lineView &&& 0x00000800 = 0x00000800 ∧ t.rnu.officeView &&& 0x00000800 = 0x00000800 := by
  obtain ⟨line, office⟩ := setBoth_sets .storeFull (frameLet n h mark s)
  have grow := endRecord_viewsGrow h (.truncated .storeFull) (setBoth .storeFull (frameLet n h mark s))
  rw [endFrame_of_current cur, if_pos rfl]
  exact ⟨grow.line _ line, grow.office _ office⟩

theorem endFrame_viewsGrow : ViewsGrow s (endFrame n final mark s) := by
  cases cur : (s.port n).current with
  | none =>
    unfold endFrame
    rw [cur]
    exact .of_rnu rfl
  | some h =>
    have letGo : ViewsGrow s (frameLet n h mark s) := .of_rnu (by rw [frameLet_rest])
    rw [endFrame_of_current cur]
    refine letGo.trans (ViewsGrow.trans ?_ (endRecord_viewsGrow h final _))
    split
    · exact setBoth_viewsGrow _ _
    · exact .of_rnu rfl

/-- An entry that the policies pass over sets its notice for the office (R182). -/
theorem endWork_skips (rec : recordAt s h = some r) (ended : r.state.finished = true) (due : r.autoDue s)
    (full : 64 ≤ pullLoad s) : (endWork h s).rnu.officeView &&& 0x00040000 = 0x00040000 := by
  have imagery := reportEnd_imagery h s
  obtain ⟨joins, auto, -⟩ := previewSettled_joins rec imagery
  have fsto : (reportEnd h s).fsto = s.fsto := reportEnd_fsto h s
  have out : ¬r.joinsPull s := fun join =>
    join.elim (fun await => nomatch await.symm.trans due.1) fun low => Nat.not_lt.2 full low.2
  unfold endWork
  generalize reportEnd h s = t at *
  have rec' : recordAt t h = some r := (recordAt_of_fsto fsto h).trans rec
  have settled : recordAt (settlePreview h t) h = some r.previewSettled := by
    rw [settlePreview_some rec', recordAt, slots_setSlot, if_pos rfl, if_pos rfl]
  rw [fullSettled_eq settled ended, if_neg (mt joins.1 out), if_pos (auto.2 due)]
  exact setOffice_sets .autoFullSkipped _

theorem endRecord_skips (rec : recordAt s h = some r) (ended : final.finished = true) (due : r.autoDue s)
    (full : 64 ≤ pullLoad s) : (endRecord h final s).rnu.officeView &&& 0x00040000 = 0x00040000 := by
  have load := agedState_load rec final
  have auto : (agedState h final s).fwd.autoFull = s.fwd.autoFull := by
    rw [agedState_eq rec]
    rfl
  have due' := (joinsPull_congr (r := r) (r' := r.ended final s.stamp) ⟨rfl, rfl, rfl⟩ auto load).2.2 due
  rw [endRecord_aged rec]
  exact endWork_skips (agedState_record rec final) ended due' (full.trans load.ge)

theorem endFrame_skips (cur : (s.port n).current = some h) (rec : recordAt s h = some r) (ended : final.finished = true)
    (due : r.autoDue s) (full : 64 ≤ pullLoad s) :
    (endFrame n final mark s).rnu.officeView &&& 0x00040000 = 0x00040000 := by
  have load := frameLeft_load (n := n) (h := h) (final := final) (mark := mark) (s := s)
  have forwards := frameLeft_forwards (n := n) (h := h) (final := final) (mark := mark) (s := s)
  simp only [State.imagery, Prod.mk.injEq] at forwards
  obtain ⟨-, -, -, -, auto, -⟩ := forwards
  have left := frameLeft_record (n := n) (final := final) (mark := mark) rec
  rw [endFrame_left cur]
  refine endRecord_skips left ended ((joinsPull_congr (r := r) ⟨rfl, rfl, rfl⟩ auto load).2.2 due) (full.trans load.ge)

end

end Sys2Proof.Machine
end

section
/-! PROOFS. The end of a port's frame (O47). -/

namespace Sys2Proof.Machine

/-- The record of a frame that its port has ended. -/
theorem endFrame_record {n : Unit8} {h : Handle} {final : RecordState} {mark : FrameFlags → FrameFlags} {s : State}
    {r : FrameRecord} (cur : (s.port n).current = some h) (rec : recordAt s h = some r) (ended : final.finished = true) :
    recordAt (endFrame n final mark s) h =
      some ((r.letGo h (s.packer n).context mark final s.stamp).worked s) := by
  have imagery := endFrame_imagery (mark := mark) cur rec ended
  simp only [State.imagery, imageryWorked, Prod.mk.injEq] at imagery
  obtain ⟨fsto, -⟩ := imagery
  rw [recordAt, fsto]
  simp

theorem finished_of_end {final : RecordState} (ends : final = .complete ∨ ∃ x, final = .truncated x) :
    final.finished = true := by
  rcases ends with rfl | ⟨x, rfl⟩ <;> rfl

theorem truncation_mark (x : TruncReason) : (fun f : FrameFlags => if x = .long then { f with long := true } else f) =
    fun f => { f with long := f.long || decide (x = .long) } := by
  funext f
  by_cases long : x = .long <;> simp [long]

/-- Settles O47: the image side, the table and the views by their lemmas above. -/
theorem framesEndWithTheirEndWork : Obligations.FramesEndWithTheirEndWork := by
  refine ⟨fun n final mark s h r ends cur rec => ?_, fun s => by rw [pullLoad, awaitCount_slots],
    fun n s => ⟨fun x => ?_, fun mark => rfl, fun noFe => rfl⟩⟩
  · intro t queued due joins
    have ended := finished_of_end ends
    have imagery : t.imagery = _ := endFrame_imagery cur rec ended
    have record : recordAt t h = _ := endFrame_record cur rec ended
    have calm : Calm s t := endFrame_calm n final mark s
    obtain ⟨still, -, -⟩ := calm
    simp only [State.still, Prod.mk.injEq] at still
    obtain ⟨-, stamp, -, -, posu, -⟩ := still
    have port : t.port n = _ := endFrame_port n final mark s
    have packer : t.packer n = _ := endFrame_packer cur n
    have pool : t.fsto.pool = s.fsto.pool := (endFrame_records n final mark s).pool
    simp only [State.imagery, imageryWorked, Prod.mk.injEq] at imagery
    obtain ⟨fsto, pull, preview, -, -, -, skipped⟩ := imagery
    refine ⟨?_, ?_, ?_, pool, ⟨_, record, rfl, rfl, rfl, rfl, rfl, rfl, rfl, rfl, rfl, rfl, rfl, rfl, rfl, rfl, rfl⟩,
      endFrame_itab cur rec, preview, pull, ?_, fun auto full => endFrame_skips cur rec ended auto full, ?_,
      fun m other => endFrame_port_other other final mark s, endFrame_trgu n final mark s, posu, stamp⟩
    · rw [port, cur]
      rfl
    · rw [packer, if_pos rfl]
    · rw [fsto]
    · by_cases skip : due ∧ 64 ≤ pullLoad s
      · rw [if_pos skip]
        exact skipped.trans (if_pos skip)
      · rw [if_neg skip]
        exact (skipped.trans (if_neg skip)).trans (BitVec.add_zero _).symm
    · rintro rfl
      exact endFrame_storeFull cur
  · intro t
    rw [truncateFrame, truncation_mark]
    rfl

end Sys2Proof.Machine
end

section
/-! PROOFS. The lock events and the expiry of the frame window (O41). -/

namespace Sys2Proof.Machine

/-! ## LOCK_GAINED and LOCK_LOST (R77, R89, R90) -/

theorem takeLockGained_unlocked {n : Unit8} {s : State} (run : inReset s = false) (state : (s.port n).state = .unlocked) :
    takeLockGained n s =
      settleChannel n ((setLock n true s).setPort n { s.port n with state := .idle, lastCounter := none }) := by
  unfold takeLockGained
  rw [run, state]
  simp only [settleAs, modPort, setPort_setPort, State.port_setPort]
  rfl

theorem takeLockGained_other {n : Unit8} {s : State} (state : (s.port n).state ≠ .unlocked) :
    takeLockGained n s = setLock n true s := by
  unfold takeLockGained
  dsimp only
  rw [if_neg state, ite_self]

theorem takeLockLost_shut {n : Unit8} {s : State} (state : (s.port n).state = .disabled ∨ (s.port n).state = .unlocked) :
    takeLockLost n s = setLock n false s := by
  unfold takeLockLost
  rcases state with state | state <;> rw [state] <;> exact ite_self _

theorem takeLockLost_open {n : Unit8} {s : State} (run : inReset s = false) (disabled : (s.port n).state ≠ .disabled)
    (unlocked : (s.port n).state ≠ .unlocked) : takeLockLost n s = loseLock n (setLock n false s) := by
  unfold takeLockLost
  rw [run]
  cases state : (s.port n).state with
  | disabled => exact absurd state disabled
  | unlocked => exact absurd state unlocked
  | idle | armed | receiving | draining => rfl

/-- The frame of a port that loses lock, truncated, with no line of its window awaited (R89). -/
def frameLost (n : Unit8) (s : State) : State :=
  if (s.port n).current.isSome then clearOutstanding n (truncateFrame n .cameraLost s) else s

/-- A port that has lost lock (R89). -/
def Port.lost (p : Port) : Port :=
  { p with state := .unlocked, current := none, counters := { p.counters with lockLosses := p.counters.lockLosses + 1 } }

theorem loseLock_eq (n : Unit8) (s : State) : loseLock n s =
    settleChannel n (setBoth .cameraLost (modPort n Port.lost (frameLost n s))) := rfl

theorem port_setBoth (k : Notice) (s : State) (n : Unit8) : (setBoth k s).port n = s.port n := by
  rw [setBoth_rest]
  rfl

theorem chan_setBoth (k : Notice) (s : State) (n : Unit8) : (setBoth k s).chan n = s.chan n := by
  rw [setBoth_rest]
  rfl

section
variable (n : Unit8) (s : State)

theorem frameLost_port : (frameLost n s).port n = { s.port n with
    current := none, windowEnd := if (s.port n).current.isSome then none else (s.port n).windowEnd
    counters := { (s.port n).counters with
      truncated := if (s.port n).current.isSome then (s.port n).counters.truncated + 1 else (s.port n).counters.truncated } } := by
  unfold frameLost
  cases cur : (s.port n).current with
  | none =>
    simp only [Option.isSome_none, Bool.false_eq_true, if_false]
    rw [← cur]
  | some h =>
    have port : (clearOutstanding n (truncateFrame n .cameraLost s)).port n = (truncateFrame n .cameraLost s).port n := rfl
    rw [Option.isSome_some, if_pos rfl, port, truncateFrame, countPort, port_modPort, if_pos rfl, endFrame_port, cur]
    rfl

theorem loseLock_port : (loseLock n s).port n = ((frameLost n s).port n).lost := by
  rw [loseLock_eq, settleChannel_port, port_setBoth, port_modPort, if_pos rfl]

theorem loseLock_fsto : (loseLock n s).fsto = (frameLost n s).fsto := by
  obtain ⟨-, -, -, fsto, -⟩ := settleChannel_rest n (setBoth .cameraLost (modPort n Port.lost (frameLost n s)))
  rw [loseLock_eq, fsto, setBoth_fsto]
  rfl

theorem loseLock_views : (loseLock n s).rnu.lineView &&& 0x00000100 = 0x00000100 ∧
    (loseLock n s).rnu.officeView &&& 0x00000100 = 0x00000100 := by
  obtain ⟨-, -, -, -, -, rnu, -⟩ := settleChannel_rest n (setBoth .cameraLost (modPort n Port.lost (frameLost n s)))
  rw [loseLock_eq, rnu]
  exact setBoth_sets .cameraLost _

/-- The window of the port's channel awaits no line of a frame that is lost (R89). -/
theorem loseLock_window {w : Window} (isOpen : ((loseLock n s).chan n).window = some w) (cur : (s.port n).current.isSome = true) :
    w.outstanding = false := by
  rw [loseLock_eq, settleChannel_chan, if_pos rfl, settledChan_window, chan_setBoth] at isOpen
  change ((frameLost n s).chan n).window = some w at isOpen
  rw [frameLost, if_pos cur, clearOutstanding, chan_modChan, if_pos rfl, Option.map_eq_some_iff] at isOpen
  obtain ⟨v, -, rfl⟩ := isOpen
  rfl

end

/-- The record of a frame that is lost (R89, R121, R122). -/
theorem loseLock_record {n : Unit8} {s : State} {h : Handle} {r : FrameRecord} (cur : (s.port n).current = some h)
    (rec : recordAt s h = some r) : ∃ r', recordAt (loseLock n s) h = some r' ∧ r'.state = .truncated .cameraLost ∧
      r'.endStamp = some s.stamp ∧ r'.lines = r.lines ∧ r'.fullBlocks = r.fullBlocks ∧
      (loseLock n s).fsto.age = s.fsto.age ++ [h] := by
  have fsto : (loseLock n s).fsto = (endFrame n (.truncated .cameraLost)
      (fun f => if TruncReason.cameraLost = .long then { f with long := true } else f) s).fsto := by
    rw [loseLock_fsto, frameLost, cur]
    rfl
  obtain ⟨⟨r', found, same⟩, age⟩ := endFrame_ends cur rec (final := .truncated .cameraLost) (by decide)
    (fun f => if TruncReason.cameraLost = .long then { f with long := true } else f)
  simp only [FrameRecord.ending, FrameRecord.core, Prod.mk.injEq] at same
  obtain ⟨⟨-, -, -, -, lines, blocks⟩, state, stamp⟩ := same
  rw [fsto, recordAt_of_fsto fsto]
  exact ⟨r', found, state, stamp, lines, blocks, age⟩

/-! ## FRAME_WINDOW_EXPIRY (R84, R122) -/

/-- The clock carried forward changes the stamp and what counts with it alone. -/
theorem reachTime_rest (t : Stamp) (s : State) : reachTime t s = { s with
    stamp := (reachTime t s).stamp, posu := (reachTime t s).posu, lnk := (reachTime t s).lnk, hold := (reachTime t s).hold } := by
  unfold reachTime elapse
  split
  · rfl
  · split <;> rfl

/-- A port whose frame window has expired (R84). -/
def Port.expired (p : Port) : Port :=
  { p with
    current := none, windowEnd := none
    counters := { p.counters with windowExpiries := p.counters.windowExpiries + 1 } }

theorem takeWindowExpiry_none {n : Unit8} {s : State} (none : (s.port n).windowEnd = none ∨ (s.port n).current = none) :
    takeWindowExpiry n s = s := by
  unfold takeWindowExpiry
  rcases none with none | none
  · rw [none]
    exact ite_self _
  · rw [none]
    cases (s.port n).windowEnd <;> exact ite_self _

theorem takeWindowExpiry_some {n : Unit8} {s : State} {e : Stamp} {h : Handle} (run : inReset s = false)
    (ends : (s.port n).windowEnd = some e) (cur : (s.port n).current = some h) : takeWindowExpiry n s =
      settleAs n .idle (modPort n Port.expired (expireRecord n h (reachTime e s))) := by
  unfold takeWindowExpiry
  rw [run, ends, cur]
  rfl

theorem expireRecord_front (n : Unit8) (h : Handle) (s : State) : (expireRecord n h s).front = s.front := by
  unfold expireRecord
  split
  · rfl
  · rename_i r _
    extract_lets s1 s2
    have freed : s2.front = s.front := (freeRecord_front h s1).trans (by
      change (if _ then _ else _ : State).front = _
      split
      · exact report_front _ _ _ _
      · rfl)
    split
    · exact freed
    · exact (setBoth_front _ _).trans freed

/-- The state whose record an expiry frees: the shot of a live item reported. -/
def expiryReported (n : Unit8) (r : FrameRecord) (s : State) : State :=
  if r.item ≠ 0 ∧ r.copy = .none then report r.item n .expired s else s

theorem expireRecord_some {n : Unit8} {h : Handle} {s : State} {r : FrameRecord} (rec : recordAt s h = some r) :
    expireRecord n h s = if r.item = 0 then freeRecord h (expiryReported n r s)
      else setBoth .missedShot (freeRecord h (expiryReported n r s)) := by
  have live : (if r.live = true then report r.item n .expired s else s) = expiryReported n r s :=
    if_congr (by simp [FrameRecord.live]) rfl rfl
  unfold expireRecord
  rw [rec]
  dsimp only
  rw [live]

theorem expireRecord_none {n : Unit8} {h : Handle} {s : State} (rec : recordAt s h = none) : expireRecord n h s = s := by
  unfold expireRecord
  rw [rec]

section
variable {n : Unit8} {h : Handle} {s : State} {r : FrameRecord} (rec : recordAt s h = some r)

theorem expiryReported_fsto : (expiryReported n r s).fsto = s.fsto := by
  unfold expiryReported
  split
  · exact report_fsto _ _ _ _
  · rfl

include rec

theorem expireRecord_fsto : (expireRecord n h s).fsto = { s.fsto with
    pool := s.fsto.pool ++ r.fullBlocks ++ r.previewBlocks
    slots := s.fsto.slots.set h.slot { gen := h.gen + 1, record := none }
    age := s.fsto.age.filter fun a => a != h } := by
  have fsto := expiryReported_fsto (n := n) (r := r) (s := s)
  have freed := freeRecord_some ((recordAt_of_fsto fsto h).trans rec)
  have freedFsto := congrArg State.fsto freed
  rw [expireRecord_some rec, apply_ite State.fsto, setBoth_fsto, ite_self, freedFsto, fsto]
  rfl

theorem expireRecord_itab : (expireRecord n h s).itab = (expiryReported n r s).itab := by
  have bench := freeRecord_bench h (expiryReported n r s)
  simp only [State.bench, Prod.mk.injEq] at bench
  rw [expireRecord_some rec, apply_ite State.itab, setBoth_rest, ite_self, bench.1]

theorem expireRecord_views (item : r.item ≠ 0) : (expireRecord n h s).rnu.lineView &&& 0x00000080 = 0x00000080 ∧
    (expireRecord n h s).rnu.officeView &&& 0x00000080 = 0x00000080 := by
  rw [expireRecord_some rec, if_neg item]
  exact setBoth_sets .missedShot _

end

theorem recordAt_expireRecord (n : Unit8) (h : Handle) (s : State) : recordAt (expireRecord n h s) h = none := by
  cases rec : recordAt s h with
  | none => rw [expireRecord_none rec, rec]
  | some r =>
    rw [recordAt, expireRecord_fsto rec]
    simp

/-- What an expiry leaves, from the state in which its record is gone (R84). -/
theorem settleAs_expired (n : Unit8) (s : State) : let t := settleAs n .idle (modPort n Port.expired s)
    t.port n = { (s.port n).expired with state := .idle } ∧ t.fsto = s.fsto ∧ t.itab = s.itab ∧ t.rnu = s.rnu ∧
      t.stamp = s.stamp ∧ t.capu = s.capu := by
  intro t
  obtain ⟨itab, -, -, fsto, -, rnu, -⟩ :=
    settleChannel_rest n (modPort n (fun p => { p with state := .idle }) (modPort n Port.expired s))
  have calm : Calm s t := (modPort_calm n _ s).trans (settleAs_calm n _ _)
  have still := calm.still
  simp only [State.still, Prod.mk.injEq] at still
  obtain ⟨-, stamp, -, -, -, capu, -⟩ := still
  refine ⟨?_, fsto, itab, rnu, stamp, capu⟩
  change (settleAs n .idle (modPort n Port.expired s)).port n = _
  rw [settleAs, settleChannel_port, port_modPort, if_pos rfl, port_modPort, if_pos rfl]

/-- The expiry of a frame window (R84, R122). -/
theorem windowExpiry_leaves {n : Unit8} {s : State} {e : Stamp} {h : Handle} (run : inReset s = false)
    (ends : (s.port n).windowEnd = some e) (cur : (s.port n).current = some h) : let t := takeWindowExpiry n s
    t.port n = { s.port n with
      state := .idle, current := none, windowEnd := none
      counters := { (s.port n).counters with windowExpiries := (s.port n).counters.windowExpiries + 1 } } ∧
    recordAt t h = none ∧ t.stamp = (reachTime e s).stamp ∧ t.capu = s.capu ∧
    ∀ f, recordAt s h = some f → t.fsto.slots[h.slot].record = none ∧ t.fsto.slots[h.slot].gen = h.gen + 1 ∧
      t.fsto.pool = s.fsto.pool ++ f.fullBlocks ++ f.previewBlocks ∧
      t.itab = (if f.item ≠ 0 ∧ f.copy = .none then report f.item n .expired s else s).itab ∧
      (f.item ≠ 0 → t.rnu.lineView &&& 0x00000080 = 0x00000080 ∧ t.rnu.officeView &&& 0x00000080 = 0x00000080) := by
  intro t
  have reached := reachTime_rest e s
  have taken : t = _ := takeWindowExpiry_some run ends cur
  obtain ⟨port, fsto, itab, rnu, stamp, capu⟩ := settleAs_expired n (expireRecord n h (reachTime e s))
  rw [← taken] at port fsto itab rnu stamp capu
  have front := expireRecord_front n h (reachTime e s)
  have still := (expireRecord_calm n h (reachTime e s)).still
  simp only [State.still, Prod.mk.injEq] at still
  obtain ⟨-, stamp', -, -, -, capu', -⟩ := still
  have ports : (reachTime e s).port n = s.port n := by
    rw [reached]
    rfl
  refine ⟨?_, ?_, stamp.trans stamp', (capu.trans capu').trans (reachTime_capu e s), fun f rec => ?_⟩
  · rw [port, port_of_front front, ports]
    rfl
  · rw [recordAt_of_fsto fsto]
    exact recordAt_expireRecord n h _
  · have fsto' : (reachTime e s).fsto = s.fsto := by rw [reached]
    have itab' : (reachTime e s).itab = s.itab := by rw [reached]
    have rec' : recordAt (reachTime e s) h = some f := (recordAt_of_fsto fsto' h).trans rec
    have freed := expireRecord_fsto (n := n) rec'
    rw [fsto'] at freed
    rw [fsto, freed, itab, rnu, expireRecord_itab rec', expiryReported, apply_ite State.itab, apply_ite State.itab,
      report_itab_congr itab', itab']
    refine ⟨by simp, by simp, rfl, rfl, expireRecord_views rec'⟩

/-- Settles O41: the two lock events and the expiry, each in device reset and out of it. -/
theorem lockEventsAndFrameWindows : Obligations.LockEventsAndFrameWindows := by
  intro n s p flag
  have gained : exec (.lockGained n) s = .next (takeLockGained n s) := rfl
  have lost : exec (.lockLost n) s = .next (takeLockLost n s) := rfl
  have expiry : exec (.frameWindowExpiry n) s = .next (takeWindowExpiry n s) := rfl
  rw [gained, lost, expiry]
  simp only [Host.Outcome.next.injEq]
  refine ⟨fun reset => ⟨if_pos reset, if_pos reset, if_pos reset⟩, fun run => ⟨takeLockGained_other,
    takeLockGained_unlocked run, takeLockLost_shut, fun disabled unlocked => ⟨_, rfl, ?_⟩, takeWindowExpiry_none,
    fun e h ends cur => ⟨_, rfl, windowExpiry_leaves run ends cur⟩⟩⟩
  rw [takeLockLost_open run disabled unlocked]
  have still := (loseLock_calm n (setLock n false s)).still
  simp only [State.still, Prod.mk.injEq] at still
  obtain ⟨-, stamp, -, pins, posu, capu, -⟩ := still
  obtain ⟨line, office⟩ := loseLock_views n (setLock n false s)
  refine ⟨?_, pins, line, office, fun h r cur rec => ?_, fun w => loseLock_window n (setLock n false s), posu, capu, stamp⟩
  · rw [loseLock_port, frameLost_port]
    rfl
  · exact loseLock_record (s := setLock n false s) cur rec

end Sys2Proof.Machine
end

section
/-! PROOFS. Room for a line: eligibility, eviction, room requests, and the line offered (O45). -/

namespace Sys2Proof.Machine

/-! ## Eligibility (R126) -/

theorem finished_iff (x : RecordState) : x.finished = true ↔ x ≠ .expected ∧ x ≠ .filling := by
  cases x <;> simp [RecordState.finished]

theorem holders_none (x : Holders) : (!x.line && !x.office) = true ↔ x = {} := by
  obtain ⟨line, office⟩ := x
  cases line <;> cases office <;> decide

theorem eligible_iff (r : FrameRecord) : r.eligible = true ↔ (r.state ≠ .expected ∧ r.state ≠ .filling) ∧ r.holders = {} ∧
    (r.previewState = .sent ∨ r.previewState = .skipped) ∧ (r.fullState = .none ∨ r.fullState = .sent) ∧
    ¬(r.item ≠ 0 ∧ r.copy = .none) := by
  have live : (!r.live) = true ↔ ¬(r.item ≠ 0 ∧ r.copy = .none) := by
    rw [Bool.not_eq_true', ← Bool.not_eq_true]
    simp [FrameRecord.live]
  rw [← live, ← holders_none, ← finished_iff]
  simp only [FrameRecord.eligible, Bool.and_eq_true, Bool.or_eq_true, decide_eq_true_eq, and_assoc]

theorem eligibleAt_iff (s : State) (h : Handle) : eligibleAt s h = true ↔ ∃ r, recordAt s h = some r ∧ r.eligible = true := by
  unfold eligibleAt
  cases recordAt s h <;> simp

/-- A freeing takes one handle from the valid ones, and no other (R115, R119). -/
theorem recordAt_freed (h k : Handle) (s : State) : recordAt (freeRecord h s) k = if k = h then none else recordAt s k := by
  split_ifs with own
  · rw [own, recordAt_freeRecord]
  · cases rec : recordAt s k with
    | some r => exact recordAt_freeRecord_other own rec
    | none =>
      cases freed : recordAt s h with
      | none => rw [freeRecord_none freed, rec]
      | some u =>
        by_cases slot : h.slot = k.slot
        · rw [freeRecord_some freed]
          unfold recordAt
          simp [slot]
        · have other : ¬h.slot.val = k.slot.val := fun e => slot (Fin.ext e)
          rw [← rec, freeRecord_some freed]
          unfold recordAt
          simp [other]

theorem recordAt_evict (h k : Handle) (s : State) : recordAt (evict h s) k = if k = h then none else recordAt s k :=
  recordAt_freed h k s

/-- No handle becomes eligible by an eviction. -/
theorem ineligible_evict {s : State} {k : Handle} (out : eligibleAt s k = false) (h : Handle) : eligibleAt (evict h s) k = false := by
  unfold eligibleAt at out ⊢
  rw [recordAt_evict]
  split_ifs with own
  · rfl
  · exact out

theorem evicted_ineligible (h : Handle) (s : State) : eligibleAt (evict h s) h = false := by
  unfold eligibleAt
  rw [recordAt_evict, if_pos rfl]

theorem oldestEligible_iff (s : State) (h : Handle) : oldestEligible s = some h ↔
    eligibleAt s h = true ∧ ∃ a b, s.fsto.age = a ++ h :: b ∧ ∀ k ∈ a, eligibleAt s k = false := by
  simp only [oldestEligible, List.find?_eq_some_iff_append, Bool.not_eq_eq_eq_not, Bool.not_true]

/-! ## Eviction (R127) -/

/-- An eviction, once its handle names a record (R115, R119, R124, R127). -/
theorem evict_some {h : Handle} {s : State} {r : FrameRecord} (rec : recordAt s h = some r) : evict h s = { s with
    fsto := { s.fsto with
      pool := s.fsto.pool ++ r.fullBlocks ++ r.previewBlocks
      slots := s.fsto.slots.set h.slot { gen := h.gen + 1, record := none }
      age := s.fsto.age.filter fun a => a != h
      evictions := s.fsto.evictions + 1 }
    fwd := { s.fwd with
      pull := s.fwd.pull.filter fun e => e.handle != h
      preview := s.fwd.preview.filter fun e => e.handle != h } } := by
  unfold evict
  rw [freeRecord_some rec]
  rfl

/-- A handle that is not eligible may be left out of the list that an eviction goes through. -/
theorem evictUntil_filter {k : Handle} (n : Nat) (l : List Handle) {s : State} (out : eligibleAt s k = false) :
    evictUntil n (l.filter fun a => a != k) s = evictUntil n l s := by
  induction l generalizing s with
  | nil => rfl
  | cons x l ih =>
    by_cases enough : n ≤ s.fsto.pool.length
    · rw [evictUntil_enough enough, evictUntil_enough enough]
    · by_cases own : x = k
      · subst own
        have passed : evictUntil n (x :: l) s = evictUntil n l s := evictUntil_skip (a := [x]) (by simpa using out) l
        rw [List.filter_cons_of_neg (by simp), passed, ih out]
      · rw [List.filter_cons_of_pos (by simpa using own)]
        cases fits : eligibleAt s x with
        | true => rw [evictUntil_take enough fits, evictUntil_take enough fits, ih (ineligible_evict out x)]
        | false =>
          have passed (l : List Handle) : evictUntil n (x :: l) s = evictUntil n l s :=
            evictUntil_skip (a := [x]) (by simpa using fits) l
          rw [passed, passed, ih out]

/-- With blocks wanting, the oldest eligible record is evicted and the request taken again (R117 case 2). -/
theorem evictUntil_oldest {n : Nat} {s : State} {old : Handle} (wanting : s.fsto.pool.length < n)
    (oldest : oldestEligible s = some old) :
    evictUntil n s.fsto.age s = evictUntil n (evict old s).fsto.age (evict old s) := by
  obtain ⟨fits, a, b, age, skipped⟩ := (oldestEligible_iff s old).1 oldest
  obtain ⟨r, rec, -⟩ := (eligibleAt_iff s old).1 fits
  have left : (evict old s).fsto.age = (a ++ old :: b).filter fun x => x != old := by rw [evict_some rec, ← age]
  have after : ∀ x ∈ a, eligibleAt (evict old s) x = false := fun x mem => ineligible_evict (skipped x mem) old
  have passed : evictUntil n (old :: b) (evict old s) = evictUntil n b (evict old s) :=
    evictUntil_skip (a := [old]) (by simpa using evicted_ineligible old s) b
  calc evictUntil n s.fsto.age s
      = evictUntil n b (evict old s) := by rw [age, evictUntil_skip skipped, evictUntil_take (Nat.not_le.2 wanting) fits]
    _ = evictUntil n (a ++ old :: b) (evict old s) := by rw [evictUntil_skip after, passed]
    _ = evictUntil n (evict old s).fsto.age (evict old s) := by rw [left, evictUntil_filter n _ (evicted_ineligible old s)]

/-! ## Room requests (R116, R117) -/

/-- The blocks that a room request asks for. -/
theorem asked_eq (full preview : Bool) : (if full then 1 else 0) + (if preview then 1 else 0) = full.toNat + preview.toNat := by
  cases full <;> cases preview <;> rfl

theorem roomRequest_enough {h : Handle} {full preview : Bool} {s : State} (enough : full.toNat + preview.toNat ≤ s.fsto.pool.length) :
    roomRequest h full preview s = (true, modRecord h (fun r => { r with
      fullBlocks := r.fullBlocks ++ s.fsto.pool.take full.toNat
      previewBlocks := r.previewBlocks ++ (s.fsto.pool.drop full.toNat).take preview.toNat })
      (takeBlocks (full.toNat + preview.toNat) s).2) := by
  have blocks : (takeBlocks (full.toNat + preview.toNat) s).1 = s.fsto.pool.take (full.toNat + preview.toNat) := rfl
  unfold roomRequest
  dsimp only
  rw [asked_eq, evictUntil_enough enough, if_pos enough, blocks]
  cases full <;> cases preview <;> simp [List.take_take, List.drop_take]

theorem takeBlocks_state (k : Nat) (s : State) : (takeBlocks k s).2 =
    if s.fsto.lowWater ≤ s.fsto.pool.length ∧ s.fsto.pool.length - k < s.fsto.lowWater then
      setBoth .storePressure (s.setFsto { s.fsto with pool := s.fsto.pool.drop k })
    else s.setFsto { s.fsto with pool := s.fsto.pool.drop k } :=
  if_congr (by simp) rfl rfl

theorem roomRequest_evicts {full preview : Bool} {s : State} {old : Handle} (wanting : s.fsto.pool.length < full.toNat + preview.toNat)
    (oldest : oldestEligible s = some old) (h : Handle) :
    roomRequest h full preview s = roomRequest h full preview (evict old s) := by
  unfold roomRequest
  dsimp only
  rw [asked_eq, evictUntil_oldest wanting oldest]

theorem roomRequest_refused {full preview : Bool} {s : State} (wanting : s.fsto.pool.length < full.toNat + preview.toNat)
    (none : oldestEligible s = none) (h : Handle) : roomRequest h full preview s =
      (false, s.setFsto { s.fsto with blockShortages := s.fsto.blockShortages + 1 }) := by
  unfold roomRequest
  dsimp only
  rw [asked_eq, evictUntil_none none, if_neg (Nat.not_le.2 wanting)]

/-! ## Lines offered (R91, R105, R118) -/

/-- A record that gets a line of another length (R86). -/
def FrameRecord.misfit (r : FrameRecord) : FrameRecord :=
  { r with bad := r.bad + 1, flags := { r.flags with lineLength := true } }

/-- The state with the length of a line checked. -/
def lengthChecked (h : Handle) (r : FrameRecord) (samples : List Nat) (s : State) : State :=
  if samples.length = r.width then s else modRecord h FrameRecord.misfit s

theorem offerLine_some {n : Unit8} {h : Handle} {r : FrameRecord} {s : State} (cur : (s.port n).current = some h)
    (rec : recordAt s h = some r) (samples : List Nat) : offerLine n samples s =
      let room := roomRequest h (roomNeeded r (s.packer n).context).1 (roomNeeded r (s.packer n).context).2
        (lengthChecked h r samples s)
      if room.1 then (true, storeLine n h (convertLine (s.packer n).conversion r.format (s.port n).depth
        (assemble r.width samples)) room.2)
      else (false, modPort n (fun p => { p with state := .draining }) (truncateFrame n .storeFull room.2)) := by
  unfold offerLine
  rw [cur]
  dsimp only
  rw [rec]
  rfl

theorem roomNeeded_eq (r : FrameRecord) (c : Option FrameContext) : roomNeeded r c =
    (decide (r.fullBlocks.length * 262144 - r.fullBytes < r.format.lineBytes r.width),
      c.any fun c => c.preview.isSome && decide (c.rows = 0) &&
        decide (r.previewBlocks.length * 262144 - r.previewBytes < r.previewLineBytes)) := by
  cases c <;> rfl

/-- Settles O45: eligibility and eviction, the three cases of a room request, and the line by the answer to its request. -/
theorem roomIsGivenOrTheFrameIsTruncated : Obligations.RoomIsGivenOrTheFrameIsTruncated := by
  refine ⟨fun s h => ?_, oldestEligible_iff, fun h s r rec => evict_some rec, fun h full preview s => ?_,
    fun n samples s h r cur rec => ?_⟩
  · rw [eligibleAt_iff]
    simp only [eligible_iff]
  · refine ⟨fun enough => ?_, fun wanting old oldest => roomRequest_evicts wanting oldest h,
      fun wanting none => roomRequest_refused wanting none h⟩
    rw [roomRequest_enough enough, takeBlocks_state]
  · have offered := offerLine_some cur rec samples
    rw [roomNeeded_eq] at offered
    exact ⟨fun granted => offered.trans (if_pos granted), fun refused => offered.trans (if_neg (Bool.eq_false_iff.1 refused))⟩

end Sys2Proof.Machine
end

section
/-! PROOFS. A stored line: its length, its bytes in the store and its counts in the record (O44). -/

namespace Sys2Proof.Machine

/-! ## Lines and their bytes (R86, R200) -/

theorem assemble_length (w : Nat) (xs : List Nat) : (assemble w xs).length = w := by
  simp [assemble]

theorem assemble_get {w k : Nat} (inside : k < w) (xs : List Nat) : (assemble w xs)[k]? = some (xs.getD k 0) := by
  unfold assemble
  rw [List.getElem?_take_of_lt inside, List.getD_eq_getElem?_getD]
  by_cases sampled : k < xs.length
  · rw [List.getElem?_append_left sampled, List.getElem?_eq_getElem sampled, Option.getD_some]
  · have short : xs.length ≤ k := Nat.not_lt.1 sampled
    rw [List.getElem?_append_right short, List.getElem?_eq_none short, Option.getD_none]
    exact List.getElem?_replicate_of_lt (by omega)

theorem pack10_length (vs : List Nat) (groups : vs.length % 4 = 0) : (pack10 vs).length = 5 * vs.length / 4 := by
  induction vs using pack10.induct with
  | case1 a b c d t ih =>
    have rest := ih (by simp only [List.length_cons] at groups; omega)
    simp only [pack10, List.length_cons, rest] at groups ⊢
    omega
  | case2 vs few =>
    match vs, few with
    | [], _ => rfl
    | [_], _ | [_, _], _ | [_, _, _], _ => simp at groups
    | a :: b :: c :: d :: t, few => exact absurd rfl (few a b c d t)

theorem pack12_length (vs : List Nat) (pairs : vs.length % 2 = 0) : (pack12 vs).length = 3 * vs.length / 2 := by
  induction vs using pack12.induct with
  | case1 a b t ih =>
    have rest := ih (by simp only [List.length_cons] at pairs; omega)
    simp only [pack12, List.length_cons, rest] at pairs ⊢
    omega
  | case2 vs few =>
    match vs, few with
    | [], _ => rfl
    | [_], _ => simp at pairs
    | a :: b :: t, few => exact absurd rfl (few a b t)

theorem packLine_length (f : Format) {vs : List Nat} (groups : vs.length % 4 = 0) :
    (packLine f vs).length = f.lineBytes vs.length := by
  cases f with
  | mono8 => exact List.length_map ..
  | mono10p => exact pack10_length vs groups
  | mono12p => exact pack12_length vs (by omega)
  | mono16 => simp [packLine, Format.lineBytes, List.length_flatMap, Nat.mul_comm]

/-! ## Addresses of a run (R105, R112) -/

theorem blockBytes_eq : blockBytes = 262144 := rfl

/-- The block of a run that holds the byte at `x`. -/
theorem runBlock {blocks : List Block} {x : Nat} (inside : x < blocks.length * 262144) :
    ∃ lt : x / 262144 < blocks.length, blocks.getD (x / blockBytes) 0 = blocks[x / 262144] := by
  have lt : x / 262144 < blocks.length := by omega
  exact ⟨lt, by rw [blockBytes_eq, List.getD_eq_getElem _ _ lt]⟩

/-- Two bytes of runs at one address lie in one block at one place. -/
theorem runAddress_eq {l m : List Block} {x y : Nat} (same : runAddress l x = runAddress m y) :
    l.getD (x / blockBytes) 0 = m.getD (y / blockBytes) 0 ∧ x % blockBytes = y % blockBytes := by
  unfold runAddress at same
  rw [blockBytes_eq] at same ⊢
  have block : (l.getD (x / 262144) 0).toNat = (m.getD (y / 262144) 0).toNat := by omega
  exact ⟨BitVec.eq_of_toNat_eq block, by omega⟩

theorem runAddress_inj {blocks : List Block} (nodup : blocks.Nodup) {x y : Nat} (hx : x < blocks.length * 262144)
    (hy : y < blocks.length * 262144) (same : runAddress blocks x = runAddress blocks y) : x = y := by
  obtain ⟨block, place⟩ := runAddress_eq same
  obtain ⟨ltx, bx⟩ := runBlock hx
  obtain ⟨lty, byy⟩ := runBlock hy
  rw [bx, byy] at block
  have quotient := (List.Nodup.getElem_inj_iff nodup).1 block
  rw [blockBytes_eq] at place
  omega

theorem runAddress_disjoint {l m : List Block} (apart : l.Disjoint m) {x y : Nat} (hx : x < l.length * 262144)
    (hy : y < m.length * 262144) : runAddress l x ≠ runAddress m y := by
  intro same
  obtain ⟨block, -⟩ := runAddress_eq same
  obtain ⟨ltx, bx⟩ := runBlock hx
  obtain ⟨lty, byy⟩ := runBlock hy
  rw [bx, byy] at block
  exact apart (List.getElem_mem ltx) (block ▸ List.getElem_mem lty)

/-- Bytes written into a run are read back. -/
theorem memRead_writeRun_own {blocks : List Block} (nodup : blocks.Nodup) {bs : List Byte} {off : Nat} {m : List Host.Cell}
    (wf : memWf m = true) (room : off + bs.length ≤ blocks.length * 262144) {k : Nat} (inside : k < bs.length) :
    memRead (writeRun blocks off bs m) (runAddress blocks (off + k)) = bs.getD k 0 := by
  induction bs generalizing off m k with
  | nil => exact absurd inside (Nat.not_lt_zero k)
  | cons b t ih =>
    rw [List.length_cons] at room inside
    cases k with
    | zero =>
      have apart : ∀ i, i < t.length → runAddress blocks off ≠ runAddress blocks (off + 1 + i) := fun i hi same => by
        have := runAddress_inj nodup (by omega) (by omega) same
        omega
      exact (memRead_writeRun apart).trans (memRead_memWrite wf _ _)
    | succ k =>
      have next : off + (k + 1) = off + 1 + k := by omega
      rw [writeRun, next, List.getD_cons_succ]
      exact ih (memWf_memWrite wf _ _) (by omega) (by omega)

/-! ## The steps of a stored line -/

/-- The state with the bytes and the counts of a line taken (R105). -/
def lineWritten (h : Handle) (line : ConvertedLine) (r : FrameRecord) (s : State) : State :=
  modRecord h (fun r => { r with
      clippedLow := r.clippedLow + line.low, clippedHigh := r.clippedHigh + line.high, marked := r.marked + line.mark })
    (s.setFsto { s.fsto with mem := writeRun r.fullBlocks r.fullBytes (packLine r.format line.values) s.fsto.mem })

theorem storeLine_some {n : Unit8} {h : Handle} {line : ConvertedLine} {s : State} {r : FrameRecord}
    (rec : recordAt s h = some r) : storeLine n h line s = modRecord h (fun r => { r with lines := r.lines + 1 })
      (accumulate n r.format line.values (faultTest n h (lineWritten h line r s))) := by
  unfold storeLine
  rw [rec]
  rfl

/-- What a change of a record leaves of the store: all but its slots. -/
theorem modRecord_mem (h : Handle) (f : FrameRecord → FrameRecord) (s : State) : (modRecord h f s).fsto.mem = s.fsto.mem := by
  unfold modRecord
  split <;> rfl

theorem faultTest_mem (n : Unit8) (h : Handle) (s : State) : (faultTest n h s).fsto.mem = s.fsto.mem := by
  unfold faultTest
  split
  · rfl
  · dsimp only
    split
    · split
      · rw [setBoth_fsto]
        split
        · rw [report_fsto, modRecord_mem]
        · exact modRecord_mem _ _ s
      · split
        · rw [report_fsto, modRecord_mem]
        · exact modRecord_mem _ _ s
    · rfl

theorem foldColumns_length (m : RangeMode) (f : Format) (d : Nat) (columns : List (Nat × Nat)) (values : List Nat) :
    (foldColumns m f d columns values).length = columns.length := by
  induction columns generalizing values with
  | nil => rfl
  | cons c columns ih =>
    obtain ⟨sum, count⟩ := c
    rw [foldColumns, List.length_cons, ih, List.length_cons]

theorem writePreviewLine_mem {n : Unit8} {ctx : FrameContext} {s : State} {r : FrameRecord} (rec : recordAt s ctx.handle = some r) :
    (writePreviewLine n ctx s).fsto.mem = writeRun r.previewBlocks r.previewBytes
      (ctx.columns.map (previewValue (s.packer n).conversion.rounding r.format)) s.fsto.mem := by
  unfold writePreviewLine
  rw [rec]
  exact modRecord_mem _ _ _

/-- The bytes that a line's share of the preview writes: none, or one preview line of its context's record (R109). -/
theorem accumulate_mem (n : Unit8) (f : Format) (values : List Nat) (s : State) :
    (accumulate n f values s).fsto.mem = s.fsto.mem ∨ ∃ c r line, (s.packer n).context = some c ∧
      recordAt s c.handle = some r ∧ line.length = c.columns.length ∧
      (accumulate n f values s).fsto.mem = writeRun r.previewBlocks r.previewBytes line s.fsto.mem := by
  unfold accumulate
  cases ctx : (s.packer n).context with
  | none => exact .inl rfl
  | some c =>
    dsimp only
    cases preview : c.preview with
    | none => exact .inl rfl
    | some d =>
      dsimp only
      split
      · exact .inl rfl
      · cases rec : recordAt s c.handle with
        | none =>
          left
          unfold writePreviewLine
          dsimp only
          rw [rec]
          rfl
        | some r =>
          exact .inr ⟨c, r, _, rfl, rec, (List.length_map ..).trans (foldColumns_length ..),
            writePreviewLine_mem (ctx := { c with
              columns := foldColumns (s.packer n).conversion.rangeMode f d c.columns values, rows := c.rows + 1 }) rec⟩

section
variable {α : Type} {p : FrameRecord → α} (flags : ∀ r flags, p { r with flags := flags } = p r)
  (lines : ∀ r lines, p { r with previewLines := lines } = p r)

include flags in
theorem faultTest_fstoKept (n : Unit8) (h : Handle) (s : State) : FstoKept p s (faultTest n h s) := by
  unfold faultTest
  split
  · exact .of_fsto rfl
  · extract_lets c s1 s2
    have marked : FstoKept p s s1 := modRecord_fstoKept h (fun r => flags r _) s
    have reported : FstoKept p s s2 := marked.trans (.of_fsto (by
      change (if _ then _ else _ : State).fsto = _
      split
      · exact report_fsto _ _ _ _
      · rfl))
    split
    · split
      · exact reported.trans (.of_fsto (setBoth_fsto _ _))
      · exact reported
    · exact .of_fsto rfl

include lines in
theorem accumulate_fstoKept (n : Unit8) (f : Format) (values : List Nat) (s : State) :
    FstoKept p s (accumulate n f values s) := by
  have written (c : FrameContext) : FstoKept p s (writePreviewLine n c s) := by
    unfold writePreviewLine
    split
    · exact .of_fsto rfl
    · exact FstoKept.before (modRecord_fstoKept _ (fun r => lines r _) _) ⟨setFsto_records rfl rfl, rfl⟩
  unfold accumulate
  split
  · exact .of_fsto rfl
  · split
    · exact .of_fsto rfl
    · dsimp only
      split
      · exact .of_fsto rfl
      · exact (written _).trans (.of_fsto rfl)

end

/-- What neither the fault test nor a preview line changes of a record. -/
def FrameRecord.filled (r : FrameRecord) := { r with flags := {}, previewLines := 0 }

section
variable {n : Unit8} {h : Handle} {line : ConvertedLine} {s : State} {r : FrameRecord} (rec : recordAt s h = some r)
include rec

theorem lineWritten_record : recordAt (lineWritten h line r s) h = some { r with
    clippedLow := r.clippedLow + line.low, clippedHigh := r.clippedHigh + line.high, marked := r.marked + line.mark } :=
  recordAt_modRecord (s := s.setFsto _) _ rec

/-- The record with a line more (R105). -/
theorem storeLine_record : ∃ u, recordAt (storeLine n h line s) h = some u ∧ u.filled = { r.filled with
    clippedLow := r.clippedLow + line.low, clippedHigh := r.clippedHigh + line.high, marked := r.marked + line.mark
    lines := r.lines + 1 } := by
  have tested : FstoKept FrameRecord.filled _ _ := faultTest_fstoKept (fun _ _ => rfl) n h (lineWritten h line r s)
  have summed : FstoKept FrameRecord.filled _ _ :=
    accumulate_fstoKept (fun _ _ => rfl) n r.format line.values (faultTest n h (lineWritten h line r s))
  obtain ⟨u, found, same⟩ := (tested.trans summed).record h _ (lineWritten_record rec)
  rw [storeLine_some rec]
  exact ⟨_, recordAt_modRecord _ found, congrArg (fun u : FrameRecord => { u with lines := u.lines + 1 }) same⟩

theorem storeLine_mem : (storeLine n h line s).fsto.mem =
    (accumulate n r.format line.values (faultTest n h (lineWritten h line r s))).fsto.mem := by
  rw [storeLine_some rec, modRecord_mem]

/-- A stored line takes nothing from the pool, and leaves every record where it is. -/
theorem storeLine_fstoKept : FstoKept (fun _ : FrameRecord => ()) s (storeLine n h line s) := by
  have written : FstoKept (fun _ : FrameRecord => ()) s (lineWritten h line r s) :=
    FstoKept.before (modRecord_fstoKept h (fun _ => by rfl) _) ⟨setFsto_records rfl rfl, rfl⟩
  rw [storeLine_some rec]
  exact written.trans ((faultTest_fstoKept (fun _ _ => rfl) n h _).trans
    ((accumulate_fstoKept (fun _ _ => rfl) n r.format line.values _).trans (modRecord_fstoKept h (fun _ => by rfl) _)))

/-- The bytes that a stored line leaves: its own in the full run, and perhaps one preview line after them (R105, R109). -/
theorem storeLine_bytes : let m := writeRun r.fullBlocks r.fullBytes (packLine r.format line.values) s.fsto.mem
    (storeLine n h line s).fsto.mem = m ∨ ∃ (c : FrameContext) (r' : FrameRecord) (bytes : List Byte), (s.packer n).context = some c ∧
      (c.handle = h → r'.previewBlocks = r.previewBlocks ∧ r'.previewBytes = r.previewBytes) ∧
      bytes.length = c.columns.length ∧
      (storeLine n h line s).fsto.mem = writeRun r'.previewBlocks r'.previewBytes bytes m := by
  intro m
  have mem : (faultTest n h (lineWritten h line r s)).fsto.mem = m := by
    rw [faultTest_mem, lineWritten, modRecord_mem]
    rfl
  have packers : (faultTest n h (lineWritten h line r s)).packers = s.packers := by
    have front := (faultTest_front n h (lineWritten h line r s)).trans (modRecord_front h _ _)
    simp only [State.front, Prod.mk.injEq] at front
    exact front.2.2
  have packer : (faultTest n h (lineWritten h line r s)).packer n = s.packer n :=
    congrArg (fun x : Vector Packer 8 => x[n]) packers
  have tested : FstoKept (fun r : FrameRecord => (r.previewBlocks, r.previewBytes)) _ _ :=
    faultTest_fstoKept (fun _ _ => rfl) n h (lineWritten h line r s)
  obtain ⟨u, found, same⟩ := tested.record h _ (lineWritten_record rec)
  simp only [Prod.mk.injEq] at same
  obtain ⟨blocks, bytes⟩ := same
  rw [storeLine_mem rec]
  have summed := accumulate_mem n r.format line.values (faultTest n h (lineWritten h line r s))
  rw [mem, packer] at summed
  obtain none | ⟨c, r', bs, context, rec', length, wrote⟩ := summed
  · exact .inl none
  · refine .inr ⟨c, r', bs, context, fun own => ?_, length, wrote⟩
    rw [own, found] at rec'
    cases rec'
    exact ⟨blocks, bytes⟩

theorem storeLine_read_alone {a : Nat} (apart : ∀ k, k < (packLine r.format line.values).length →
    a ≠ runAddress r.fullBlocks (r.fullBytes + k)) (none : (s.packer n).context = none) :
    memRead (storeLine n h line s).fsto.mem a = memRead s.fsto.mem a := by
  obtain bytes | ⟨c, -, -, context, -⟩ := storeLine_bytes (n := n) (line := line) rec
  · rw [bytes, memRead_writeRun apart]
  · rw [none] at context
    exact nomatch context

theorem storeLine_read_apart {a : Nat} {c : FrameContext} (context : (s.packer n).context = some c) (own : c.handle = h)
    (full : ∀ k, k < (packLine r.format line.values).length → a ≠ runAddress r.fullBlocks (r.fullBytes + k))
    (preview : ∀ k, k < c.columns.length → a ≠ runAddress r.previewBlocks (r.previewBytes + k)) :
    memRead (storeLine n h line s).fsto.mem a = memRead s.fsto.mem a := by
  obtain bytes | ⟨c', r', bs, context', run, length, bytes⟩ := storeLine_bytes (n := n) (line := line) rec
  · rw [bytes, memRead_writeRun full]
  · obtain rfl : c = c' := Option.some.inj (context.symm.trans context')
    obtain ⟨blocks, start⟩ := run own
    rw [bytes, blocks, start, memRead_writeRun (by rw [length]; exact preview), memRead_writeRun full]

theorem storeLine_read_own (wf : memWf s.fsto.mem = true) (nodup : (r.fullBlocks ++ r.previewBlocks).Nodup)
    (room : r.fullBytes + (packLine r.format line.values).length ≤ r.fullBlocks.length * 262144)
    (previewRoom : ∀ c, (s.packer n).context = some c →
      c.handle = h ∧ r.previewBytes + c.columns.length ≤ r.previewBlocks.length * 262144)
    {k : Nat} (inside : k < (packLine r.format line.values).length) :
    memRead (storeLine n h line s).fsto.mem (runAddress r.fullBlocks (r.fullBytes + k)) =
      (packLine r.format line.values).getD k 0 := by
  obtain ⟨fullNodup, -, apart⟩ := List.nodup_append'.1 nodup
  have written := memRead_writeRun_own fullNodup wf room inside
  obtain bytes | ⟨c, r', bs, context, run, length, bytes⟩ := storeLine_bytes (n := n) (line := line) rec
  · rw [bytes, written]
  · obtain ⟨own, fits⟩ := previewRoom c context
    obtain ⟨blocks, start⟩ := run own
    rw [bytes, blocks, start, memRead_writeRun, written]
    exact fun i hi => runAddress_disjoint apart (by omega) (by omega)

end

/-- Settles O44: the line's length and bytes, and then the record, the bytes and the rest of a state that stores it. -/
theorem linesAreStoredInTheirBlocks : Obligations.LinesAreStoredInTheirBlocks := by
  refine ⟨fun w xs => ⟨assemble_length w xs, fun k inside => assemble_get inside xs⟩, fun f vs groups => packLine_length f groups,
    fun n h line s r rec => ?_⟩
  intro t bytes
  obtain ⟨u, found, filled⟩ := storeLine_record (n := n) (line := line) rec
  have kept := storeLine_fstoKept (n := n) (line := line) rec
  have still := (storeLine_calm n h line s).still
  have sides := storeLine_sides n h line s
  simp only [State.still, Prod.mk.injEq] at still
  simp only [State.sides, Prod.mk.injEq] at sides
  obtain ⟨-, -, -, -, posu, -⟩ := still
  obtain ⟨trgu, ports⟩ := sides
  refine ⟨⟨u, found, ?_⟩, fun a apart none => storeLine_read_alone rec apart none,
    fun wf nodup room previewRoom k inside => storeLine_read_own rec wf nodup room previewRoom inside,
    fun c a context own full preview => storeLine_read_apart rec context own full preview, kept.pool, kept.age, posu, trgu, ports⟩
  have fields {β : Type} (g : FrameRecord → β) : g u.filled = g _ := congrArg g filled
  exact ⟨fields FrameRecord.lines, fields FrameRecord.clippedLow, fields FrameRecord.clippedHigh, fields FrameRecord.marked,
    fields FrameRecord.fullBlocks, fields FrameRecord.previewBlocks, fields FrameRecord.state, fields FrameRecord.item,
    fields FrameRecord.holders⟩

end Sys2Proof.Machine
end

section
/-! PROOFS. The ledger of the catalogue: what O59 says of the store, the queues and the lanes, and how it is kept when one record
is freed, placed or changed (O59). -/

namespace Sys2Proof.Machine

/-! ## The ledger -/

/-- The state of a part of a record, of either kind (R124). -/
inductive PartState where
  | none
  | await
  | queued
  | sending
  | sent
  | skipped
  deriving DecidableEq

/-- A part that stands in its queue. -/
abbrev PartState.waits (x : PartState) : Prop := x = .queued ∨ x = .sending

/-- What the ledger holds of a frame record. -/
structure Entry where
  port : Unit8
  state : RecordState
  blocks : List Block
  part : Part → PartState

/-- An entry with one part changed. -/
def Entry.withPart (e : Entry) (p : Part) (x : PartState) : Entry := { e with part := fun y => if y = p then x else e.part y }

/-- The blocks, the records by slot and generation, the age list, the image queues, and the lanes with whether they abandon. -/
structure Ledger where
  pool : List Block
  slots : Vector (BitVec 7 × Option Entry) 512
  age : List Handle
  queue : Part → List Handle
  lane : Part → Option (Handle × Bool)

/-- The entry that a valid handle names (R119). -/
def Ledger.entry (L : Ledger) (h : Handle) : Option Entry := if L.slots[h.slot].1 = h.gen then L.slots[h.slot].2 else none

/-- The blocks of a slot. -/
def slotBlocks (x : BitVec 7 × Option Entry) : List Block := x.2.elim [] Entry.blocks

/-- A slot's record awaits its pull. -/
def slotAwaits (x : BitVec 7 × Option Entry) : Bool := x.2.any fun e => decide (e.part .full = .await)

/-- The pull load. -/
def Ledger.load (L : Ledger) : Nat := (L.queue .full).length + L.slots.toList.countP slotAwaits

/-- The frames that the ports hold, each with the state that its record is to have. -/
abbrev Held := Unit8 → Option (Handle × RecordState)

/-- Where a handle stands. -/
structure Places where
  aged : Prop
  queued : Part → Prop
  going : Part → Prop
  held : Unit8 → RecordState → Prop

def Ledger.places (L : Ledger) (cur : Held) (h : Handle) : Places where
  aged := h ∈ L.age
  queued := fun p => h ∈ L.queue p
  going := fun p => L.lane p = some (h, false)
  held := fun n x => cur n = some (h, x)

/-- The parts of a record by whether it has ended (R121, R123, R179). -/
def Entry.partsOk (e : Entry) : Prop :=
  if e.state.finished = true then e.part .full ≠ .await ∧ e.part .preview ≠ .none
  else (e.part .full = .none ∨ e.part .full = .await) ∧ e.part .preview = .none

/-- A handle stands where its entry says, and one without an entry nowhere. -/
def Fits (o : Option Entry) (p : Places) : Prop :=
  match o with
  | none => ¬p.aged ∧ (∀ x, ¬p.queued x) ∧ (∀ x, ¬p.going x) ∧ ∀ n x, ¬p.held n x
  | some e => (p.aged ↔ e.state.finished = true) ∧ (∀ x, p.queued x ↔ (e.part x).waits) ∧
    (∀ x, p.going x ↔ e.part x = .sending) ∧ (∀ n x, p.held n x ↔ e.port = n ∧ e.state = x ∧ x.finished = false) ∧ e.partsOk

/-- What O59 says of the store, the queues and the lanes, with the frames that the ports hold. -/
structure LedgerOk (L : Ledger) (cur : Held) : Prop where
  blocks : (L.pool ++ L.slots.toList.flatMap slotBlocks).Perm (blocksFrom 16384 0)
  aged : L.age.Nodup
  queued : ∀ p, (L.queue p).Nodup
  load : L.load ≤ 64
  heads : ∀ p h, L.lane p = some (h, false) → (L.queue p).head? = some h
  preview : ∀ h b, L.lane .preview = some (h, b) → b = false
  fits : ∀ h, Fits (L.entry h) (L.places cur h)

/-! ## One slot of a table -/

theorem perm_set {α : Type} (l : List α) (i : Nat) (lt : i < l.length) (x : α) : (l[i] :: l.set i x).Perm (x :: l) := by
  induction l generalizing i with
  | nil => exact absurd lt (Nat.not_lt_zero i)
  | cons a l ih =>
    cases i with
    | zero => exact .swap x a l
    | succ i => exact (List.Perm.swap a _ _).trans (((ih i (Nat.lt_of_succ_lt_succ lt)).cons a).trans (.swap x a l))

section
variable {α : Type} (v : Vector α 512) (i : Fin 512) (x : α)

theorem perm_setSlot : (v[i] :: (v.set i x).toList).Perm (x :: v.toList) := by
  have lt : i.val < v.toList.length := by simp
  have step := perm_set v.toList i.val lt x
  rwa [Vector.getElem_toList, ← Vector.toList_set] at step

theorem flatMap_setSlot {β : Type} (f : α → List β) :
    (f v[i] ++ (v.set i x).toList.flatMap f).Perm (f x ++ v.toList.flatMap f) :=
  (perm_setSlot v i x).flatMap_right f

theorem countP_setSlot (p : α → Bool) :
    (v.set i x).toList.countP p + (p v[i]).toNat = v.toList.countP p + (p x).toNat := by
  have count := (perm_setSlot v i x).countP_eq p
  have bit (b : Bool) : (if b = true then 1 else 0) = b.toNat := by cases b <;> rfl
  rwa [List.countP_cons, List.countP_cons, bit, bit] at count

end

/-! ## One entry changed -/

section
variable {L L' : Ledger} {cur cur' : Held} {h : Handle}

theorem entry_slot {e : Entry} (own : L.entry h = some e) : L.slots[h.slot] = (h.gen, some e) := by
  unfold Ledger.entry at own
  split at own
  · exact Prod.ext ‹_› own
  · exact nomatch own

/-- A slot replaced under its generation changes the entry of one handle. -/
theorem entry_set {o o' : Option Entry} (was : L.slots[h.slot] = (h.gen, o)) (slots : L'.slots = L.slots.set h.slot (h.gen, o'))
    (k : Handle) : L'.entry k = if k = h then o' else L.entry k := by
  obtain ⟨i, g⟩ := h
  obtain ⟨j, g'⟩ := k
  unfold Ledger.entry
  rw [slots]
  by_cases slot : j = i
  · subst slot
    have set : (L.slots.set (j : Nat) (g, o'))[j] = (g, o') := by simp
    simp only at was
    simp only [Handle.mk.injEq, true_and, set, was, eq_comm (a := g)]
    split_ifs <;> rfl
  · have other : (L.slots.set (i : Nat) (g, o'))[j] = L.slots[j] := by
      have apart : i.val ≠ j.val := fun e => slot (Fin.ext e.symm)
      simp [apart]
    simp only [Handle.mk.injEq, slot, false_and, if_false, other]

/-- The entry of one handle changed, or placed in a free slot. -/
theorem LedgerOk.put (ok : LedgerOk L cur) {o : Option Entry} {e' : Entry} (was : L.slots[h.slot] = (h.gen, o))
    (slots : L'.slots = L.slots.set h.slot (h.gen, some e'))
    (blocks : (L'.pool ++ e'.blocks).Perm (L.pool ++ o.elim [] Entry.blocks))
    (aged : L'.age.Nodup) (queued : ∀ p, (L'.queue p).Nodup)
    (load : L.load + (L'.queue .full).length + (slotAwaits (h.gen, some e')).toNat ≤
      64 + (L.queue .full).length + (slotAwaits (h.gen, o)).toNat)
    (heads : ∀ p k, L'.lane p = some (k, false) → (L'.queue p).head? = some k)
    (preview : ∀ k b, L'.lane .preview = some (k, b) → b = false)
    (others : ∀ k, k ≠ h → L'.places cur' k = L.places cur k) (own : Fits (some e') (L'.places cur' h)) :
    LedgerOk L' cur' := by
  have swap := flatMap_setSlot L.slots h.slot (h.gen, some e') slotBlocks
  have count := countP_setSlot L.slots h.slot (h.gen, some e') slotAwaits
  rw [was, ← slots] at swap count
  refine ⟨?_, aged, queued, ?_, heads, preview, fun k => ?_⟩
  · refine (List.perm_iff_count.2 fun b => ?_).trans ok.blocks
    have given := List.perm_iff_count.1 blocks b
    have moved := List.perm_iff_count.1 swap b
    simp only [List.count_append, slotBlocks, Option.elim_some] at given moved ⊢
    omega
  · unfold Ledger.load at load ⊢
    omega
  · rw [entry_set was slots]
    split_ifs with same
    · rw [same]
      exact own
    · rw [others k same]
      exact ok.fits k

/-- What a change of an entry leaves, where the handle's places and the load stay as they are. -/
theorem LedgerOk.fits_own (ok : LedgerOk L cur) {e : Entry} (own : L.entry h = some e) : Fits (some e) (L.places cur h) :=
  own ▸ ok.fits h

/-! ## A record freed -/

/-- A ledger without a record (R115, R119, R124). -/
def Ledger.free (L : Ledger) (h : Handle) (e : Entry) : Ledger where
  pool := L.pool ++ e.blocks
  slots := L.slots.set h.slot (h.gen + 1, none)
  age := L.age.filter fun a => a != h
  queue := fun p => (L.queue p).filter fun a => a != h
  lane := L.lane

theorem entry_free {e : Entry} (own : L.entry h = some e) (k : Handle) :
    (L.free h e).entry k = if k = h then none else L.entry k := by
  have was := entry_slot own
  obtain ⟨i, g⟩ := h
  obtain ⟨j, g'⟩ := k
  unfold Ledger.entry Ledger.free
  by_cases slot : j = i
  · subst slot
    simp only at was
    have set : (L.slots.set (j : Nat) (g + 1, none))[j] = (g + 1, none) := by simp
    simp only [Handle.mk.injEq, true_and, set, was, eq_comm (a := g)]
    split_ifs <;> rfl
  · have apart : i.val ≠ j.val := fun e => slot (Fin.ext e.symm)
    have other : (L.slots.set (i : Nat) (g + 1, none))[j] = L.slots[j] := by simp [apart]
    simp only [Handle.mk.injEq, slot, false_and, if_false, other]

theorem head_filter_ne {l : List Handle} {k h : Handle} (head : l.head? = some k) (ne : k ≠ h) :
    (l.filter fun a => a != h).head? = some k := by
  cases l with
  | nil => exact nomatch head
  | cons a t =>
    obtain rfl : a = k := by simpa using head
    rw [List.filter_cons_of_pos (by simpa using ne)]
    rfl

/-- A record freed that is not being sent; a port that held it gives it up. -/
theorem LedgerOk.free (ok : LedgerOk L cur) {e : Entry} (own : L.entry h = some e) (still : ∀ p, e.part p ≠ .sending)
    (gone : ∀ n x, cur' n ≠ some (h, x)) (others : ∀ k, k ≠ h → ∀ n x, cur' n = some (k, x) ↔ cur n = some (k, x)) :
    LedgerOk (L.free h e) cur' := by
  have swap := flatMap_setSlot L.slots h.slot (h.gen + 1, none) slotBlocks
  have count := countP_setSlot L.slots h.slot (h.gen + 1, none) slotAwaits
  rw [entry_slot own] at swap count
  obtain ⟨-, -, going, -, -⟩ := ok.fits_own own
  have lane (p : Part) (k : Handle) (sends : L.lane p = some (k, false)) : k ≠ h := by
    rintro rfl
    exact still p ((going p).1 sends)
  refine ⟨?_, ok.aged.filter _, fun p => (ok.queued p).filter _, ?_, fun p k sends => ?_, ok.preview, fun k => ?_⟩
  · refine (List.perm_iff_count.2 fun b => ?_).trans ok.blocks
    have moved := List.perm_iff_count.1 swap b
    simp only [Ledger.free, List.count_append, slotBlocks, Option.elim_some, Option.elim_none, List.count_nil] at moved ⊢
    omega
  · have shorter := List.length_filter_le (fun a => a != h) (L.queue .full)
    have load := ok.load
    have none : (slotAwaits (h.gen + 1, none)).toNat = 0 := rfl
    simp only [Ledger.load, Ledger.free] at load ⊢
    omega
  · exact head_filter_ne (ok.heads p k sends) (lane p k sends)
  · rw [entry_free own]
    split_ifs with same
    · subst same
      exact ⟨by simp [Ledger.places, Ledger.free], by simp [Ledger.places, Ledger.free],
        fun p sends => lane p k sends rfl, gone⟩
    · have places : (L.free h e).places cur' k = L.places cur k := by
        simp [Ledger.places, Ledger.free, same, others k same]
      rw [places]
      exact ok.fits k

/-! ## A record placed -/

/-- A ledger with an entry changed. -/
def Ledger.setEntry (L : Ledger) (h : Handle) (e : Entry) : Ledger :=
  { L with slots := L.slots.set h.slot (h.gen, some e) }

/-- A record of a frame that has not ended, without blocks, placed in a free slot, and its port that takes it. -/
theorem LedgerOk.place (ok : LedgerOk L cur) {e : Entry} (was : L.slots[h.slot] = (h.gen, none)) (unended : e.state.finished = false)
    (bare : e.blocks = []) (parts : ∀ p, e.part p = .none) (idle : cur e.port = none)
    (holds : ∀ n, cur' n = if n = e.port then some (h, e.state) else cur n) : LedgerOk (L.setEntry h e) cur' := by
  have none : L.entry h = none := by
    unfold Ledger.entry
    rw [was]
    exact ite_self _
  have absent := ok.fits h
  rw [none] at absent
  obtain ⟨aged, queued, going, held⟩ := absent
  refine ok.put was rfl ?_ ok.aged ok.queued ?_ ok.heads ok.preview (fun k other => ?_) ⟨?_, fun p => ?_, fun p => ?_, fun n x => ?_, ?_⟩
  · rw [bare]
    exact List.Perm.refl _
  · have load := ok.load
    have awaits : slotAwaits (h.gen, some e) = false := by simp [slotAwaits, parts]
    rw [awaits]
    simp only [Ledger.setEntry, Bool.toNat_false]
    omega
  · have same (n : Unit8) (x : RecordState) : cur' n = some (k, x) ↔ cur n = some (k, x) := by
      rw [holds]
      split_ifs with own
      · rw [own, idle]
        simp [Ne.symm other]
      · rfl
    simp [Ledger.places, Ledger.setEntry, same]
  · rw [unended]
    exact iff_of_false aged Bool.false_ne_true
  · rw [parts]
    exact iff_of_false (queued p) (by decide)
  · rw [parts]
    exact iff_of_false (going p) (by decide)
  · change cur' n = some (h, x) ↔ _
    rw [holds]
    split_ifs with own
    · simp only [own, Option.some.injEq, Prod.mk.injEq, true_and]
      exact ⟨fun same => ⟨same, same ▸ unended⟩, And.left⟩
    · exact iff_of_false (held n x) fun same => own same.1.symm
  · unfold Entry.partsOk
    rw [unended, parts, parts]
    exact ⟨.inl rfl, rfl⟩

theorem nodup_joined {l : List Handle} (nodup : l.Nodup) (out : h ∉ l) (b : Bool) : (l ++ if b then [h] else []).Nodup := by
  cases b with
  | false => simpa using nodup
  | true => exact List.nodup_append'.2 ⟨nodup, List.nodup_singleton h, by simpa using out⟩

theorem head_joined {l m : List Handle} {k : Handle} (head : l.head? = some k) : (l ++ m).head? = some k := by
  rw [List.head?_append, head]
  rfl

theorem mem_joined {l : List Handle} {k : Handle} (b : Bool) : k ∈ l ++ (if b then [h] else []) ↔ k ∈ l ∨ (b = true ∧ k = h) := by
  cases b <;> simp

/-! ## A record changed -/

section
variable {e : Entry} (ok : LedgerOk L cur) (own : L.entry h = some e)
include ok own

/-- Blocks that leave the head of the pool for a record (R116, R117). -/
theorem LedgerOk.grow {k : Nat} {blocks : List Block} (more : blocks.Perm (e.blocks ++ L.pool.take k)) :
    LedgerOk { L.setEntry h { e with blocks := blocks } with pool := L.pool.drop k } cur := by
  obtain ⟨aged, queued, going, held, parts⟩ := ok.fits_own own
  refine ok.put (entry_slot own) rfl ?_ ok.aged ok.queued ?_ ok.heads ok.preview (fun _ _ => rfl)
    ⟨aged, queued, going, held, parts⟩
  · refine List.perm_iff_count.2 fun b => ?_
    have split := List.perm_iff_count.1 more b
    have pool : L.pool.count b = (L.pool.take k).count b + (L.pool.drop k).count b := by
      rw [← List.count_append, List.take_append_drop]
    simp only [List.count_append, Option.elim_some] at split ⊢
    omega
  · have load := ok.load
    have same : slotAwaits (h.gen, some { e with blocks := blocks }) = slotAwaits (h.gen, some e) := rfl
    rw [same]
    simp only [Ledger.setEntry]
    omega

/-- The frame of a port starts (R82). -/
theorem LedgerOk.start (armed : e.state = .expected)
    (holds : ∀ n, cur' n = if n = e.port then some (h, .filling) else cur n) :
    LedgerOk (L.setEntry h { e with state := .filling }) cur' := by
  obtain ⟨aged, queued, going, held, parts⟩ := ok.fits_own own
  have was : cur e.port = some (h, .expected) := (held _ _).2 ⟨rfl, armed, rfl⟩
  unfold Entry.partsOk at parts
  rw [armed] at aged parts
  refine ok.put (entry_slot own) rfl (List.Perm.refl _) ok.aged ok.queued ?_ ok.heads ok.preview (fun k other => ?_)
    ⟨aged, queued, going, fun n x => ?_, parts⟩
  · have load := ok.load
    have same : slotAwaits (h.gen, some { e with state := .filling }) = slotAwaits (h.gen, some e) := rfl
    rw [same]
    simp only [Ledger.setEntry]
    omega
  · have same (n : Unit8) (x : RecordState) : cur' n = some (k, x) ↔ cur n = some (k, x) := by
      rw [holds]
      split_ifs with mine
      · rw [mine, was]
        simp [Ne.symm other]
      · rfl
    simp [Ledger.places, Ledger.setEntry, same]
  · change cur' n = some (h, x) ↔ _
    rw [holds]
    split_ifs with mine
    · simp only [mine, Option.some.injEq, Prod.mk.injEq, true_and]
      exact ⟨fun same => ⟨same, same ▸ rfl⟩, And.left⟩
    · refine iff_of_false (fun same => ?_) fun same => mine same.1.symm
      exact mine ((held n x).1 same).1.symm

/-- A waiting part that is asked for, or no longer: AWAIT and NONE of a frame in reception (R178, R180). -/
theorem LedgerOk.ask {x : PartState} (filling : e.state.finished = false) (asked : x = .none ∨ x = .await)
    (room : x = .await → L.load < 64) :
    LedgerOk (L.setEntry h (e.withPart .full x)) cur := by
  obtain ⟨aged, queued, going, held, parts⟩ := ok.fits_own own
  unfold Entry.partsOk at parts
  rw [filling, if_neg Bool.false_ne_true] at parts
  obtain ⟨full, preview⟩ := parts
  have idle {y : PartState} (out : y = .none ∨ y = .await) : ¬y.waits ∧ y ≠ .sending := by
    rcases out with rfl | rfl <;> decide
  refine ok.put (entry_slot own) rfl (List.Perm.refl _) ok.aged ok.queued ?_ ok.heads ok.preview (fun _ _ => rfl)
    ⟨aged, fun p => ?_, fun p => ?_, held, ?_⟩
  · have load := ok.load
    have bit : (slotAwaits (h.gen, some (e.withPart .full x))).toNat ≤ 1 := by
      cases slotAwaits _ <;> decide
    simp only [Ledger.setEntry]
    by_cases await : x = .await
    · have := room await
      omega
    · have none : slotAwaits (h.gen, some (e.withPart .full x)) = false := by
        simp [slotAwaits, Entry.withPart, await]
      rw [none, Bool.toNat_false]
      omega
  · dsimp only [Entry.withPart]
    split_ifs with own
    · subst own
      exact (queued .full).trans (iff_of_false (idle full).1 (idle asked).1)
    · exact queued p
  · dsimp only [Entry.withPart]
    split_ifs with own
    · subst own
      exact (going .full).trans (iff_of_false (idle full).2 (idle asked).2)
    · exact going p
  · unfold Entry.partsOk Entry.withPart
    dsimp only
    rw [filling, if_neg Bool.false_ne_true]
    exact ⟨asked, preview⟩

/-- A ledger with a part of an entry changed, and with it the part's queue and lane. -/
def Ledger.setPart (L : Ledger) (h : Handle) (e : Entry) (p : Part) (x : PartState) (q : List Handle)
    (l : Option (Handle × Bool)) : Ledger :=
  { L.setEntry h (e.withPart p x) with
    queue := fun y => if y = p then q else L.queue y
    lane := fun y => if y = p then l else L.lane y }

/-- A part of a record that has ended goes from one state to another, with its handle's place in queue and lane. -/
theorem LedgerOk.setPart {p : Part} {x : PartState} {q : List Handle} {l : Option (Handle × Bool)}
    (ended : e.state.finished = true) (settled : x ≠ .await ∧ (p = .preview → x ≠ .none)) (nodup : q.Nodup)
    (queued : h ∈ q ↔ x.waits) (others : ∀ k, k ≠ h → (k ∈ q ↔ k ∈ L.queue p))
    (room : p = .full → L.load + q.length ≤ 64 + (L.queue .full).length) (lane : l = some (h, false) ↔ x = .sending)
    (lanes : ∀ k, k ≠ h → (l = some (k, false) ↔ L.lane p = some (k, false))) (head : ∀ k, l = some (k, false) → q.head? = some k)
    (preview : p = .preview → ∀ k b, l = some (k, b) → b = false) : LedgerOk (L.setPart h e p x q l) cur := by
  obtain ⟨aged, waits, going, held, parts⟩ := ok.fits_own own
  unfold Entry.partsOk at parts
  rw [ended, if_pos rfl] at parts
  obtain ⟨fullPart, previewPart⟩ := parts
  refine ok.put (entry_slot own) rfl (List.Perm.refl _) ok.aged (fun y => ?_) ?_ (fun y k => ?_) (fun k b => ?_)
    (fun k other => ?_) ⟨aged, fun y => ?_, fun y => ?_, held, ?_⟩
  · dsimp only [Ledger.setPart]
    split_ifs
    · exact nodup
    · exact ok.queued y
  · have load := ok.load
    have none : slotAwaits (h.gen, some (e.withPart p x)) = false := by
      by_cases full : Part.full = p <;> simp [slotAwaits, Entry.withPart, full, settled.1, fullPart]
    rw [none]
    dsimp only [Ledger.setPart]
    by_cases full : p = .full
    · have := room full
      rw [if_pos full.symm, Bool.toNat_false]
      omega
    · rw [if_neg (Ne.symm full), Bool.toNat_false]
      omega
  · dsimp only [Ledger.setPart]
    split_ifs
    · exact head k
    · exact ok.heads y k
  · dsimp only [Ledger.setPart]
    split_ifs with same
    · exact preview same.symm k b
    · exact ok.preview k b
  · have inQueue (y : Part) : k ∈ (L.setPart h e p x q l).queue y ↔ k ∈ L.queue y := by
      dsimp only [Ledger.setPart]
      split_ifs with same
      · rw [same]
        exact others k other
      · rfl
    have inLane (y : Part) : (L.setPart h e p x q l).lane y = some (k, false) ↔ L.lane y = some (k, false) := by
      dsimp only [Ledger.setPart]
      split_ifs with same
      · rw [same]
        exact lanes k other
      · rfl
    simp only [Ledger.places, inQueue, inLane]
    rfl
  · dsimp only [Ledger.setPart, Ledger.places, Entry.withPart]
    split_ifs
    · exact queued
    · exact waits y
  · dsimp only [Ledger.setPart, Ledger.places, Entry.withPart]
    split_ifs
    · exact lane
    · exact going y
  · unfold Entry.partsOk Entry.withPart
    dsimp only
    rw [ended, if_pos rfl]
    refine ⟨?_, ?_⟩
    · split_ifs
      · exact settled.1
      · exact fullPart
    · split_ifs with same
      · exact settled.2 same.symm
      · exact previewPart

/-- An entry with its end and its parts settled. -/
def Entry.settled (e : Entry) (final : RecordState) (joins shows : Bool) : Entry :=
  { e with
    state := final
    part := fun p => match p with
      | .full => if joins then .queued else e.part .full
      | .preview => if shows then .queued else .skipped }

/-- A ledger after the end work of a record (R121, R123). -/
def Ledger.settle (L : Ledger) (h : Handle) (e : Entry) (final : RecordState) (joins shows : Bool) : Ledger :=
  { L.setEntry h (e.settled final joins shows) with
    age := L.age ++ [h]
    queue := fun p => match p with
      | .full => L.queue .full ++ if joins then [h] else []
      | .preview => L.queue .preview ++ if shows then [h] else [] }

/-- The frame of a port ends (R121, R123, R179, R182). -/
theorem LedgerOk.settle {final : RecordState} {joins shows : Bool} (filling : e.state.finished = false)
    (ended : final.finished = true) (awaited : e.part .full = .await → joins = true)
    (room : joins = true → e.part .full = .await ∨ L.load < 64)
    (gives : ∀ n, cur' n = if n = e.port then none else cur n) : LedgerOk (L.settle h e final joins shows) cur' := by
  obtain ⟨aged, waits, going, held, parts⟩ := ok.fits_own own
  have was : cur e.port = some (h, e.state) := (held _ _).2 ⟨rfl, rfl, filling⟩
  unfold Entry.partsOk at parts
  rw [filling, if_neg Bool.false_ne_true] at parts
  obtain ⟨fullPart, previewPart⟩ := parts
  have outFull : h ∉ L.queue .full := fun mem => by
    have := (waits .full).1 mem
    rcases fullPart with part | part <;> rw [part] at this <;> revert this <;> decide
  have outPreview : h ∉ L.queue .preview := fun mem => by
    have := (waits .preview).1 mem
    rw [previewPart] at this
    revert this
    decide
  have outAge : h ∉ L.age := fun mem => by
    have := aged.1 mem
    rw [filling] at this
    exact Bool.false_ne_true this
  have staysNone (out : joins = false) : e.part .full = .none :=
    fullPart.resolve_right fun await => by rw [awaited await] at out; exact Bool.false_ne_true out.symm
  refine ok.put (entry_slot own) rfl (List.Perm.refl _) ?_ (fun p => ?_) ?_ (fun p k sends => ?_) ok.preview
    (fun k other => ?_) ⟨?_, fun p => ?_, fun p => ?_, fun n x => ?_, ?_⟩
  · exact nodup_joined ok.aged outAge true
  · cases p with
    | full => exact nodup_joined (ok.queued .full) outFull joins
    | preview => exact nodup_joined (ok.queued .preview) outPreview shows
  · have load := ok.load
    have none : slotAwaits (h.gen, some (e.settled final joins shows)) = false := by
      cases out : joins with
      | true => simp [slotAwaits, Entry.settled]
      | false => simp [slotAwaits, Entry.settled, staysNone out]
    have bit : (slotAwaits (h.gen, some e)).toNat = if e.part .full = .await then 1 else 0 := by
      by_cases await : e.part .full = .await <;> simp [slotAwaits, await]
    rw [none, bit]
    dsimp only [Ledger.settle]
    cases out : joins with
    | false => simp; omega
    | true =>
      rw [if_pos rfl, List.length_append, List.length_singleton, Bool.toNat_false]
      rcases room out with await | low
      · rw [if_pos await]
        omega
      · omega
  · cases p with
    | full => exact head_joined (ok.heads .full k sends)
    | preview => exact head_joined (ok.heads .preview k sends)
  · have inQueue (p : Part) : k ∈ (L.settle h e final joins shows).queue p ↔ k ∈ L.queue p := by
      cases p with
      | full => exact (mem_joined joins).trans (or_iff_left fun own => other own.2)
      | preview => exact (mem_joined shows).trans (or_iff_left fun own => other own.2)
    have holder (n : Unit8) (x : RecordState) : cur' n = some (k, x) ↔ cur n = some (k, x) := by
      rw [gives]
      split_ifs with mine
      · rw [mine, was]
        simp [Ne.symm other]
      · rfl
    have inAge : k ∈ L.age ++ [h] ↔ k ∈ L.age := by simp [other]
    simp only [Ledger.places, inQueue, holder]
    simp only [Ledger.settle, Ledger.setEntry, inAge]
  · exact iff_of_true (by simp [Ledger.places, Ledger.settle]) ended
  · cases p with
    | full =>
      refine (mem_joined joins).trans ?_
      dsimp only [Entry.settled]
      cases out : joins with
      | true => simp [PartState.waits]
      | false => simp [outFull, staysNone out]
    | preview =>
      refine (mem_joined shows).trans ?_
      dsimp only [Entry.settled]
      cases shows <;> simp [outPreview, PartState.waits]
  · have idle : ¬L.lane p = some (h, false) := fun sends => by
      have := (going p).1 sends
      cases p with
      | full => rcases fullPart with part | part <;> rw [part] at this <;> exact nomatch this
      | preview => rw [previewPart] at this; exact nomatch this
    refine iff_of_false idle ?_
    cases p with
    | full =>
      dsimp only [Entry.settled]
      cases out : joins with
      | true => simp
      | false => simp [staysNone out]
    | preview => cases shows <;> simp [Entry.settled]
  · refine iff_of_false ?_ ?_
    · change ¬cur' n = some (h, x)
      rw [gives]
      split_ifs with mine
      · exact fun same => nomatch same
      · exact fun same => mine ((held n x).1 same).1.symm
    · rintro ⟨-, rfl, unended⟩
      exact Bool.false_ne_true (unended.symm.trans ended)
  · unfold Entry.partsOk
    rw [if_pos (show (e.settled final joins shows).state.finished = true from ended)]
    dsimp only [Entry.settled]
    refine ⟨?_, by cases shows <;> simp⟩
    cases out : joins with
    | true => simp
    | false => simp [staysNone out]

end

end

end Sys2Proof.Machine
end

section
/-! PROOFS. The ledger of a state, the posts of its units, and what O59 says in their terms (O59). -/

namespace Sys2Proof.Machine

/-! ## The ledger of a state -/

def FullState.part : FullState → PartState
  | .none => .none
  | .await => .await
  | .queued => .queued
  | .sending => .sending
  | .sent => .sent

def PreviewState.part : PreviewState → PartState
  | .none => .none
  | .queued => .queued
  | .sending => .sending
  | .sent => .sent
  | .skipped => .skipped

/-- A record's entry in the ledger. -/
def FrameRecord.entry (r : FrameRecord) : Entry where
  port := r.port
  state := r.state
  blocks := r.fullBlocks ++ r.previewBlocks
  part := fun p => match p with
    | .full => r.fullState.part
    | .preview => r.previewState.part

def State.ledger (s : State) : Ledger where
  pool := s.fsto.pool
  slots := s.readSlots FrameRecord.entry
  age := s.fsto.age
  queue := fun p => (s.fwd.queue p).map (·.handle)
  lane := fun p => (s.fwd.lane p).map fun t => (t.handle, t.abandoning)

theorem FullState.part_eq (x : FullState) : (x.part = .await ↔ x = .await) ∧ (x.part = .none ↔ x = .none) ∧
    (x.part = .sending ↔ x = .sending) ∧ (x.part.waits ↔ x = .queued ∨ x = .sending) := by
  cases x <;> decide

theorem PreviewState.part_eq (x : PreviewState) : (x.part = .none ↔ x = .none) ∧ (x.part = .sending ↔ x = .sending) ∧
    (x.part.waits ↔ x = .queued ∨ x = .sending) := by
  cases x <;> decide

/-- The ledger's entry of a handle is its record's. -/
theorem ledger_entry (s : State) (h : Handle) : s.ledger.entry h = (recordAt s h).map FrameRecord.entry := by
  unfold Ledger.entry recordAt State.ledger
  rw [readSlots_get]
  split <;> rfl

theorem ledger_entry_some {s : State} {h : Handle} {r : FrameRecord} (rec : recordAt s h = some r) :
    s.ledger.entry h = some r.entry := by
  rw [ledger_entry, rec, Option.map_some]

theorem ledger_blocks (s : State) : s.ledger.slots.toList.flatMap slotBlocks = s.fsto.slots.toList.flatMap Slot.blocks := by
  rw [State.ledger, State.readSlots, Vector.toList_map, List.flatMap_map]
  refine congrArg (fun f => s.fsto.slots.toList.flatMap f) (funext fun sl => ?_)
  unfold slotBlocks Slot.blocks
  cases sl.record <;> rfl

theorem ledger_load (s : State) : s.ledger.load = pullLoad s := by
  have awaiting : s.ledger.slots.toList.countP slotAwaits = awaitCount s := by
    rw [awaitCount_slots, State.ledger, State.readSlots, Vector.toList_map, List.countP_map]
    refine List.countP_congr fun sl _ => ?_
    cases rec : sl.record with
    | none => simp [rec, slotAwaits]
    | some r => simp [rec, slotAwaits, FrameRecord.entry, r.fullState.part_eq.1]
  rw [Ledger.load, awaiting, pullLoad]
  exact congrArg (· + awaitCount s) (List.length_map ..)

theorem ledger_of_imagery {s t : State} (same : t.imagery = s.imagery) : t.ledger = s.ledger := by
  simp only [State.imagery, Prod.mk.injEq] at same
  obtain ⟨fsto, pull, preview, full, lane, -, -⟩ := same
  unfold State.ledger Fwd.queue Fwd.lane
  rw [readSlots_of_fsto fsto, fsto, pull, preview, full, lane]

/-- The ledger of a state with a record written over a valid one, or into a free slot. -/
theorem ledger_setSlot (s : State) (h : Handle) (r : FrameRecord) :
    (s.setSlot h.slot { gen := h.gen, record := some r }).ledger = s.ledger.setEntry h r.entry := by
  unfold State.ledger Ledger.setEntry
  rw [readSlots_setSlot]
  rfl

theorem ledger_modRecord {s : State} {h : Handle} {r : FrameRecord} (rec : recordAt s h = some r)
    (f : FrameRecord → FrameRecord) : (modRecord h f s).ledger = s.ledger.setEntry h (f r).entry := by
  rw [modRecord_some rec, ledger_setSlot]

/-- A change of a record that its entry does not show. -/
theorem ledger_modRecord_same {f : FrameRecord → FrameRecord} (same : ∀ r, (f r).entry = r.entry) (h : Handle) (s : State) :
    (modRecord h f s).ledger = s.ledger := by
  have slots : (modRecord h f s).readSlots FrameRecord.entry = s.readSlots FrameRecord.entry :=
    modRecord_readSlots fun r _ => same r
  unfold State.ledger
  rw [slots, modRecord_rest]
  congr 1
  · exact (modRecord_fstoKept (p := FrameRecord.entry) h same s).pool
  · exact (modRecord_fstoKept (p := FrameRecord.entry) h same s).age

theorem map_handle_filter (q : List ImageEntry) (h : Handle) :
    (q.filter fun e => e.handle != h).map (·.handle) = (q.map (·.handle)).filter fun a => a != h := by
  rw [List.filter_map]
  rfl

theorem ledger_freeRecord {s : State} {h : Handle} {r : FrameRecord} (rec : recordAt s h = some r) :
    (freeRecord h s).ledger = s.ledger.free h r.entry := by
  have slots : ((freeRecord h s).readSlots FrameRecord.entry) = (s.readSlots FrameRecord.entry).set h.slot (h.gen + 1, none) := by
    rw [freeRecord_some rec]
    exact readSlots_setSlot s h.slot { gen := h.gen + 1, record := none }
  unfold State.ledger Ledger.free
  rw [slots, freeRecord_some rec]
  congr 1
  · exact List.append_assoc _ _ _
  · funext p
    cases p <;> exact map_handle_filter _ h

/-! ## The posts of the units -/

/-- What O59 says of a unit speaks of these: of the channel its state, its plan, the kinds in its queue, whether it has a
free-running target, and its window's frame; of the port its state and kind, its frame, and whether its timer runs; and the
frame of the packer's context. -/
structure Post where
  chan : ChannelState
  plan : Plan
  kinds : List ShotKind
  aims : Bool
  window : Option Handle
  port : PortState
  kind : PortKind
  current : Option Handle
  timed : Bool
  context : Option Handle

def postOf (c : Channel) (p : Port) (k : Packer) : Post where
  chan := c.state
  plan := c.plan
  kinds := c.queue.map (·.kind)
  aims := c.freeRun.isSome
  window := c.window.map (·.handle)
  port := p.state
  kind := p.kind
  current := p.current
  timed := p.windowEnd.isSome
  context := k.context.map (·.handle)

def State.posts (s : State) (n : Unit8) : Post := postOf (s.chan n) (s.port n) (s.packer n)

/-- The state that the record of a port's frame is to have (R76, R82). -/
def Post.frameState (p : Post) : RecordState := if p.port = .armed then .expected else .filling

/-- The frames that the ports hold. -/
def holders (posts : Unit8 → Post) : Held := fun n => (posts n).current.map fun h => (h, (posts n).frameState)

/-- What O59 says of a unit beside its frame's record (R51, R71, R76, R81, R91, R98). -/
structure Post.Fits (p : Post) : Prop where
  current : p.current.isSome = true ↔ p.port = .armed ∨ p.port = .receiving
  timed : p.timed = true ↔ p.port = .armed
  context : p.context = if p.port = .receiving then p.current else none
  idle : p.chan = .idle → p.plan = .off ∧ p.kinds = [] ∧ p.aims = false ∧ p.window = none ∧ p.current = none
  area : p.kind = .area → p.window = none ∧ ∀ k ∈ p.kinds, k = .areaShot
  scan : p.kind = .scan → p.port ≠ .armed ∧ (∀ k ∈ p.kinds, k ≠ .areaShot) ∧ (p.port = .receiving → p.window = p.current) ∧
    (p.port = .draining → p.window ≠ none)

/-- The ledger is kept, with the frames of the ports, and every unit fits. -/
structure Good (s : State) : Prop where
  books : LedgerOk s.ledger (holders s.posts)
  units : ∀ n, (s.posts n).Fits

/-- A segment going out is its lane's (R176, R180). -/
def TxOk (s : State) : Prop :=
  ∀ g, s.lnk.tx = .image g → ∃ b, s.ledger.lane g.part = some (g.handle, b) ∧ (g.abandoned = true → b = true)

/-! ## O59 in these terms -/

theorem unitOk_iff (s : State) (n : Unit8) : UnitOk s n ↔ (s.posts n).Fits ∧ ∀ h, (s.port n).current = some h →
    ∃ r, recordAt s h = some r ∧ r.port = n ∧ r.state = (s.posts n).frameState := by
  constructor
  · rintro ⟨current, record, timed, context, idle, area, scan⟩
    refine ⟨⟨current, timed, context, fun h => ?_, fun h => ?_, fun h => ?_⟩, record⟩
    · obtain ⟨plan, queue, aims, window, none⟩ := idle h
      exact ⟨plan, by simp [State.posts, postOf, queue], by simp [State.posts, postOf, aims],
        by simp [State.posts, postOf, window], none⟩
    · obtain ⟨window, kinds⟩ := area h
      exact ⟨by simp [State.posts, postOf, window], by simpa [State.posts, postOf] using kinds⟩
    · obtain ⟨unarmed, kinds, receiving, draining⟩ := scan h
      exact ⟨unarmed, by simpa [State.posts, postOf] using kinds, receiving,
        by simpa [State.posts, postOf] using draining⟩
  · rintro ⟨⟨current, timed, context, idle, area, scan⟩, record⟩
    refine ⟨current, record, timed, context, fun h => ?_, fun h => ?_, fun h => ?_⟩
    · obtain ⟨plan, queue, aims, window, none⟩ := idle h
      exact ⟨plan, by simpa [State.posts, postOf] using queue, by simpa [State.posts, postOf] using aims,
        by simpa [State.posts, postOf] using window, none⟩
    · obtain ⟨window, kinds⟩ := area h
      exact ⟨by simpa [State.posts, postOf] using window, by simpa [State.posts, postOf] using kinds⟩
    · obtain ⟨unarmed, kinds, receiving, draining⟩ := scan h
      exact ⟨unarmed, by simpa [State.posts, postOf] using kinds, receiving,
        by simpa [State.posts, postOf] using draining⟩

/-- A frame held by a port, by its record (R76). -/
theorem holders_some {s : State} {n : Unit8} {h : Handle} {x : RecordState} : holders s.posts n = some (h, x) ↔
    (s.port n).current = some h ∧ (s.posts n).frameState = x := by
  simp [holders, State.posts, postOf]

theorem frameState_unfinished (p : Post) : p.frameState.finished = false := by
  unfold Post.frameState
  split <;> rfl

theorem partsOk_iff (r : FrameRecord) : r.entry.partsOk ↔
    (if r.state.finished = true then r.fullState ≠ .await ∧ r.previewState ≠ .none
      else (r.fullState = .none ∨ r.fullState = .await) ∧ r.previewState = .none) := by
  obtain ⟨await, none, -, -⟩ := r.fullState.part_eq
  obtain ⟨noPreview, -, -⟩ := r.previewState.part_eq
  unfold Entry.partsOk FrameRecord.entry
  dsimp only
  rw [ne_eq, ne_eq, ne_eq, ne_eq, await, none, noPreview]

theorem lane_going {s : State} {p : Part} {h : Handle} {b : Bool} : s.ledger.lane p = some (h, b) ↔
    ∃ t, s.fwd.lane p = some t ∧ t.handle = h ∧ t.abandoning = b := by
  simp [State.ledger]

theorem ledger_head {s : State} {p : Part} : (s.ledger.queue p).head? = (s.fwd.queue p).head?.map (·.handle) :=
  List.head?_map

section
variable {s : State}

/-- What the ledger says of a record. -/
theorem Good.record (ok : Good s) {h : Handle} {r : FrameRecord} (rec : recordAt s h = some r) :
    Fits (some r.entry) (s.ledger.places (holders s.posts) h) := ok.books.fits_own (ledger_entry_some rec)

/-- A port's frame has a record, of that port, in the state that goes with the port's (R76). -/
theorem Good.held (ok : Good s) {n : Unit8} {h : Handle} (cur : (s.port n).current = some h) :
    ∃ r, recordAt s h = some r ∧ r.port = n ∧ r.state = (s.posts n).frameState := by
  have fits := ok.books.fits h
  have holds : holders s.posts n = some (h, (s.posts n).frameState) := holders_some.2 ⟨cur, rfl⟩
  rw [ledger_entry] at fits
  cases rec : recordAt s h with
  | none =>
    rw [rec] at fits
    exact absurd holds (fits.2.2.2 n _)
  | some r =>
    rw [rec] at fits
    obtain ⟨-, -, -, held, -⟩ := fits
    obtain ⟨port, state, -⟩ := (held n _).1 holds
    exact ⟨r, rfl, port, state⟩

theorem TxOk.iff : TxOk s ↔ ∀ g, s.lnk.tx = .image g → ∃ t, s.fwd.lane g.part = some t ∧ t.handle = g.handle ∧
    (g.abandoned = true → t.abandoning = true) := by
  refine forall₂_congr fun g _ => ?_
  simp only [lane_going]
  constructor
  · rintro ⟨b, ⟨t, lane, handle, rfl⟩, abandoned⟩
    exact ⟨t, lane, handle, abandoned⟩
  · rintro ⟨t, lane, handle, abandoned⟩
    exact ⟨_, ⟨t, lane, handle, rfl⟩, abandoned⟩

/-- O59's two predicates say no more. -/
theorem Good.statement (ok : Good s) (tx : TxOk s) : CatalogueOk s ∧ QueuesOk s := by
  obtain ⟨books, units⟩ := id ok
  have record {h : Handle} {r : FrameRecord} (rec : recordAt s h = some r) := ok.record rec
  have placed {h : Handle} {P : FrameRecord → Prop} {Q : Prop} (here : ∀ r, recordAt s h = some r → (Q ↔ P r))
      (nowhere : recordAt s h = none → ¬Q) : Q ↔ ∃ r, recordAt s h = some r ∧ P r := by
    cases rec : recordAt s h with
    | none => exact iff_of_false (nowhere rec) fun ⟨_, found, _⟩ => nomatch found
    | some r => simp [here r rec]
  have absent {h : Handle} (rec : recordAt s h = none) := books.fits h
  simp only [ledger_entry] at absent
  have sending (p : Part) {h : Handle} (lane : s.ledger.lane p = some (h, false)) :
      (s.fwd.queue p).head?.map (·.handle) = some h ∧ ∃ r, recordAt s h = some r ∧ r.entry.part p = .sending := by
    refine ⟨ledger_head.symm.trans (books.heads p h lane), (placed (Q := True) (fun r rec => ?_) fun rec => ?_).1 trivial⟩
    · exact iff_of_true trivial (((record rec).2.2.1 p).1 lane)
    · have out := absent rec
      rw [rec] at out
      exact absurd lane (out.2.2.1 p)
  have queued (p : Part) (h : Handle) :
      h ∈ (s.fwd.queue p).map (·.handle) ↔ ∃ r, recordAt s h = some r ∧ (r.entry.part p).waits := by
    refine placed (fun r rec => (record rec).2.1 p) fun rec mem => ?_
    have out := absent rec
    rw [rec] at out
    exact out.2.1 p mem
  refine ⟨⟨ledger_blocks s ▸ books.blocks, books.aged, fun h => ?_, fun h r rec unended => ?_,
    fun n => (unitOk_iff s n).2 ⟨units n, fun h => ok.held⟩⟩, books.queued .full, books.queued .preview,
    ledger_load s ▸ books.load, fun h => ?_, fun h => ?_, fun h r rec => ?_, fun t lane going => ?_, fun t lane => ?_, TxOk.iff.1 tx⟩
  · refine placed (fun r rec => (record rec).1) fun rec mem => ?_
    have out := absent rec
    rw [rec] at out
    exact out.1 mem
  · obtain ⟨-, -, -, held, -⟩ := record rec
    exact (holders_some.1 ((held r.port r.state).2 ⟨rfl, rfl, unended⟩)).1
  · exact (queued .full h).trans (exists_congr fun r => and_congr_right fun _ => r.fullState.part_eq.2.2.2)
  · exact (queued .preview h).trans (exists_congr fun r => and_congr_right fun _ => r.previewState.part_eq.2.2)
  · obtain ⟨-, -, going, -, parts⟩ := record rec
    refine ⟨(partsOk_iff r).1 parts, fun full => ?_, fun preview => ?_⟩
    · exact lane_going.1 ((going .full).2 (r.fullState.part_eq.2.2.1.2 full))
    · obtain ⟨t, lane, handle, -⟩ := lane_going.1 ((going .preview).2 (r.previewState.part_eq.2.1.2 preview))
      exact ⟨t, lane, handle⟩
  · obtain ⟨head, r, rec, part⟩ := sending .full (lane_going.2 ⟨t, lane, rfl, going⟩)
    exact ⟨head, r, rec, r.fullState.part_eq.2.2.1.1 part⟩
  · have going : t.abandoning = false := books.preview t.handle _ (lane_going.2 ⟨t, lane, rfl, rfl⟩)
    obtain ⟨head, r, rec, part⟩ := sending .preview (lane_going.2 ⟨t, lane, rfl, going⟩)
    exact ⟨going, head, r, rec, r.previewState.part_eq.2.1.1 part⟩

/-- And no less. -/
theorem good_of_statement (catalogue : CatalogueOk s) (queues : QueuesOk s) : Good s ∧ TxOk s := by
  obtain ⟨blocks, aged, ended, unended, units⟩ := catalogue
  obtain ⟨pulls, previews, load, pulled, previewed, parts, fullLane, previewLane, tx⟩ := queues
  have unit (n : Unit8) := (unitOk_iff s n).1 (units n)
  refine ⟨⟨⟨(ledger_blocks s).symm ▸ blocks, aged, fun p => ?_, (ledger_load s).symm ▸ load, fun p h lane => ?_,
    fun h b lane => ?_, fun h => ?_⟩, fun n => (unit n).1⟩, TxOk.iff.2 tx⟩
  · cases p with
    | full => exact pulls
    | preview => exact previews
  · obtain ⟨t, sends, rfl, going⟩ := lane_going.1 lane
    rw [ledger_head]
    cases p with
    | full => exact (fullLane t sends going).1
    | preview => exact (previewLane t sends).2.1
  · obtain ⟨t, sends, -, rfl⟩ := lane_going.1 lane
    exact (previewLane t sends).1
  · have sends (p : Part) (lane : s.ledger.lane p = some (h, false)) : ∃ r, recordAt s h = some r ∧ r.entry.part p = .sending := by
      obtain ⟨t, sends, rfl, going⟩ := lane_going.1 lane
      cases p with
      | full =>
        obtain ⟨-, r, rec, part⟩ := fullLane t sends going
        exact ⟨r, rec, r.fullState.part_eq.2.2.1.2 part⟩
      | preview =>
        obtain ⟨-, -, r, rec, part⟩ := previewLane t sends
        exact ⟨r, rec, r.previewState.part_eq.2.1.2 part⟩
    have queued (p : Part) : h ∈ s.ledger.queue p ↔ ∃ r, recordAt s h = some r ∧ (r.entry.part p).waits := by
      cases p with
      | full => exact (pulled h).trans (exists_congr fun r => and_congr_right fun _ => r.fullState.part_eq.2.2.2.symm)
      | preview => exact (previewed h).trans (exists_congr fun r => and_congr_right fun _ => r.previewState.part_eq.2.2.symm)
    have held {n : Unit8} {x : RecordState} (holds : holders s.posts n = some (h, x)) :
        ∃ r, recordAt s h = some r ∧ r.port = n ∧ r.state = x := by
      obtain ⟨cur, rfl⟩ := holders_some.1 holds
      exact (unit n).2 h cur
    rw [ledger_entry]
    cases rec : recordAt s h with
    | none =>
      rw [rec] at sends queued held
      have none {P : FrameRecord → Prop} : ¬∃ r, Option.none = some r ∧ P r := fun ⟨_, found, _⟩ => nomatch found
      refine ⟨fun mem => ?_, fun p mem => none ((queued p).1 mem), fun p lane => none (sends p lane),
        fun n x holds => none (held holds)⟩
      have := (ended h).1 mem
      rw [rec] at this
      exact none this
    | some r =>
      rw [rec] at sends queued held
      obtain ⟨partsOk, full, preview⟩ := parts h r rec
      have own {P : FrameRecord → Prop} : (∃ q, some r = some q ∧ P q) ↔ P r := by simp
      refine ⟨?_, fun p => (queued p).trans own, fun p => ⟨fun lane => own.1 (sends p lane), fun part => ?_⟩,
        fun n x => ⟨fun holds => ?_, fun ⟨port, state, unended'⟩ => ?_⟩, (partsOk_iff r).2 partsOk⟩
      · have := ended h
        rw [rec] at this
        exact this.trans own
      · cases p with
        | full => exact lane_going.2 (full (r.fullState.part_eq.2.2.1.1 part))
        | preview =>
          obtain ⟨t, lane, handle⟩ := preview (r.previewState.part_eq.2.1.1 part)
          exact lane_going.2 ⟨t, lane, handle, (previewLane t lane).1⟩
      · obtain ⟨port, state⟩ := own.1 (held holds)
        refine ⟨port, state, ?_⟩
        rw [← (holders_some.1 holds).2]
        exact frameState_unfinished _
      · subst port
        have cur := unended h r rec (by rw [← unended', ← state]; rfl)
        obtain ⟨r', rec', -, state'⟩ := (unit r.port).2 h cur
        obtain rfl : r = r' := Option.some.inj (rec.symm.trans rec')
        exact holders_some.2 ⟨cur, state'.symm.trans state⟩

end

end Sys2Proof.Machine
end

section
/-! PROOFS. What leaves the ledger and the posts as they are, and posts that change one at a time (O59). -/

namespace Sys2Proof.Machine

/-! ## What O59 says nothing of -/

/-- From `s` to `t` neither the ledger nor a post changes. -/
structure Same (s t : State) : Prop where
  ledger : t.ledger = s.ledger
  posts : t.posts = s.posts

theorem Same.refl (s : State) : Same s s := ⟨rfl, rfl⟩

theorem Same.trans {a b c : State} (h : Same a b) (k : Same b c) : Same a c :=
  ⟨k.ledger.trans h.ledger, k.posts.trans h.posts⟩

/-- `Same.trans` read from the last operation back. -/
theorem Same.before {a b c : State} (k : Same b c) (h : Same a b) : Same a c := h.trans k

theorem Same.good {s t : State} (same : Same s t) (ok : Good s) : Good t := by
  obtain ⟨books, units⟩ := ok
  refine ⟨?_, fun n => ?_⟩
  · rw [same.ledger, same.posts]
    exact books
  · rw [same.posts]
    exact units n

theorem posts_of_front {s t : State} (same : t.front = s.front) : t.posts = s.posts := by
  simp only [State.front, Prod.mk.injEq] at same
  obtain ⟨trgu, ports, packers⟩ := same
  funext n
  unfold State.posts State.chan State.port State.packer
  rw [trgu, ports, packers]

theorem Same.of {s t : State} (imagery : t.imagery = s.imagery) (front : t.front = s.front) : Same s t :=
  ⟨ledger_of_imagery imagery, posts_of_front front⟩

theorem setOffice_same (n : Notice) (s : State) : Same s (setOffice n s) := .of (setOffice_imagery n s) (setOffice_front n s)

theorem setBoth_same (n : Notice) (s : State) : Same s (setBoth n s) := .of (setBoth_imagery n s) (setBoth_front n s)

theorem queueMessage_same (type : Byte) (b : List Byte) (s : State) : Same s (queueMessage type b s) :=
  .of (queueMessage_imagery type b s) (queueMessage_front type b s)

theorem completeIfSettled_same (n : Nat) (s : State) : Same s (completeIfSettled n s) :=
  .of (completeIfSettled_imagery n s) (completeIfSettled_front n s)

theorem report_same (n : Nat) (ch : Unit8) (r : Report) (s : State) : Same s (report n ch r s) :=
  .of (report_imagery n ch r s) (report_front n ch r s)

/-- A change of a record that its entry does not show. -/
theorem modRecord_same {f : FrameRecord → FrameRecord} (same : ∀ r, (f r).entry = r.entry) (h : Handle) (s : State) :
    Same s (modRecord h f s) := ⟨ledger_modRecord_same same h s, posts_of_front (modRecord_front h f s)⟩

/-! ## One unit -/

open Function (update)

section
variable (n : Unit8) (s : State)

theorem posts_setChan (c : Channel) : (s.setChan n c).posts = update s.posts n (postOf c (s.port n) (s.packer n)) := by
  funext m
  by_cases own : m = n
  · subst own
    rw [Function.update_self, State.posts, State.chan_setChan]
    rfl
  · rw [Function.update_of_ne own, State.posts, State.chan_setChan_ne _ _ (Ne.symm own)]
    rfl

theorem posts_setPort (p : Port) : (s.setPort n p).posts = update s.posts n (postOf (s.chan n) p (s.packer n)) := by
  funext m
  by_cases own : m = n
  · subst own
    rw [Function.update_self, State.posts, State.port_setPort]
    rfl
  · rw [Function.update_of_ne own, State.posts, State.port_setPort_ne _ _ (Ne.symm own)]
    rfl

theorem posts_setPacker (k : Packer) : (s.setPacker n k).posts = update s.posts n (postOf (s.chan n) (s.port n) k) := by
  funext m
  by_cases own : m = n
  · subst own
    rw [Function.update_self, State.posts, State.packer_setPacker]
    rfl
  · rw [Function.update_of_ne own, State.posts, State.packer_setPacker_ne _ _ (Ne.symm own)]
    rfl

theorem posts_modChan (f : Channel → Channel) :
    (modChan n f s).posts = update s.posts n (postOf (f (s.chan n)) (s.port n) (s.packer n)) := posts_setChan n s _

theorem posts_modPort (f : Port → Port) :
    (modPort n f s).posts = update s.posts n (postOf (s.chan n) (f (s.port n)) (s.packer n)) := posts_setPort n s _

variable {n s}

theorem update_posts {p : Post} (same : s.posts n = p) : update s.posts n p = s.posts := by
  rw [← same, Function.update_eq_self]

/-- A channel, a port or a packer changed, by what its post shows of it. -/
theorem modChan_posts {f : Channel → Channel} {g : Post → Post} (shown : ∀ c p k, postOf (f c) p k = g (postOf c p k)) :
    (modChan n f s).posts = update s.posts n (g (s.posts n)) := (posts_modChan n s f).trans (congrArg _ (shown _ _ _))

theorem modPort_posts {f : Port → Port} {g : Post → Post} (shown : ∀ c p k, postOf c (f p) k = g (postOf c p k)) :
    (modPort n f s).posts = update s.posts n (g (s.posts n)) := (posts_modPort n s f).trans (congrArg _ (shown _ _ _))

theorem setPacker_shown (k : Packer) :
    (s.setPacker n k).posts = update s.posts n { s.posts n with context := k.context.map (·.handle) } := posts_setPacker n s k

/-- The unit is changed twice. -/
theorem update_twice (posts : Unit8 → Post) (p : Post) (g : Post → Post) :
    update (update posts n p) n (g (update posts n p n)) = update posts n (g p) := by
  rw [Function.update_idem, Function.update_self]

/-- A channel changed where its post shows nothing. -/
theorem modChan_same {f : Channel → Channel} (same : ∀ c p k, postOf (f c) p k = postOf c p k) : Same s (modChan n f s) :=
  ⟨rfl, (modChan_posts (g := id) same).trans (update_posts rfl)⟩

theorem modPort_same {f : Port → Port} (same : ∀ c p k, postOf c (f p) k = postOf c p k) : Same s (modPort n f s) :=
  ⟨rfl, (modPort_posts (g := id) same).trans (update_posts rfl)⟩

theorem setPacker_same {k : Packer} (same : k.context.map (·.handle) = (s.packer n).context.map (·.handle)) :
    Same s (s.setPacker n k) := by
  refine ⟨rfl, (setPacker_shown k).trans (update_posts ?_)⟩
  rw [same]
  rfl

theorem countPort_same (f : PortCounters → PortCounters) : Same s (countPort n f s) := modPort_same fun _ _ _ => by rfl

theorem countSkip_same : Same s (countSkip n s) := modChan_same fun _ _ _ => by rfl

theorem loadShadow_same : Same s (loadShadow n s) := modChan_same fun _ _ _ => by rfl

theorem startPulse_same : Same s (startPulse n s) := modChan_same fun _ _ _ => by rfl

end

/-- What a port holds. -/
def Post.held (p : Post) : Option (Handle × RecordState) := p.current.map fun h => (h, p.frameState)

theorem holders_update (posts : Unit8 → Post) (n : Unit8) (p : Post) :
    holders (update posts n p) = update (holders posts) n p.held := by
  funext m
  by_cases own : m = n
  · subst own
    rw [Function.update_self, holders, Function.update_self]
    rfl
  · rw [Function.update_of_ne own, holders, holders, Function.update_of_ne own]

/-- The books are kept by a post that changes nothing of its frame. -/
theorem books_of_held {s t : State} {n : Unit8} {p : Post} (books : LedgerOk s.ledger (holders s.posts))
    (ledger : t.ledger = s.ledger) (posts : t.posts = update s.posts n p) (held : p.held = (s.posts n).held) :
    LedgerOk t.ledger (holders t.posts) := by
  have same : update (holders s.posts) n p.held = holders s.posts := by
    rw [held]
    exact Function.update_eq_self n _
  rw [ledger, posts, holders_update, same]
  exact books

section
variable {s t : State} {n : Unit8} {p : Post}

/-- A unit changed to a post that fits. -/
theorem Good.put (ok : Good s) (posts : t.posts = update s.posts n p) (fits : p.Fits) (books : LedgerOk t.ledger (holders t.posts)) :
    Good t := by
  refine ⟨books, fun m => ?_⟩
  rw [posts]
  by_cases own : m = n
  · subst own
    rwa [Function.update_self]
  · rw [Function.update_of_ne own]
    exact ok.units m

/-- A unit changed to a post that fits and holds the same frame. -/
theorem Good.repost (ok : Good s) (ledger : t.ledger = s.ledger) (posts : t.posts = update s.posts n p)
    (held : p.held = (s.posts n).held) (fits : p.Fits) : Good t :=
  ok.put posts fits (books_of_held ok.books ledger posts held)

/-- A channel changed to a post that fits. -/
theorem Good.modChan (ok : Good s) {f : Channel → Channel} {g : Post → Post} (shown : ∀ c p k, postOf (f c) p k = g (postOf c p k))
    (fits : (g (s.posts n)).Fits) : Good (modChan n f s) :=
  ok.repost rfl (posts_modChan n s f) rfl ((shown _ _ _).symm ▸ fits)

end

/-! ## Posts that fit -/

section
variable {p : Post} (fits : p.Fits)
include fits

/-- A port that is neither ARMED nor RECEIVING has no frame, no timer and no context (R76, R81, R98). -/
theorem Post.Fits.resting (unarmed : p.port ≠ .armed) (still : p.port ≠ .receiving) :
    p.current = none ∧ p.timed = false ∧ p.context = none := by
  refine ⟨?_, ?_, ?_⟩
  · exact Option.not_isSome_iff_eq_none.1 fun some => (fits.current.1 some).elim unarmed still
  · exact Bool.eq_false_iff.2 fun timed => unarmed (fits.timed.1 timed)
  · rw [fits.context, if_neg still]

/-- A port without a frame is neither ARMED nor RECEIVING (R76). -/
theorem Post.Fits.vacant (none : p.current = none) : p.port ≠ .armed ∧ p.port ≠ .receiving := by
  have := fits.current
  rw [none] at this
  exact ⟨fun armed => (nomatch this.2 (.inl armed)), fun receiving => (nomatch this.2 (.inr receiving))⟩

/-- A queue with fewer kinds (R62, R61, R69). -/
theorem Post.Fits.fewer {q : List ShotKind} (sub : q ⊆ p.kinds) : ({ p with kinds := q } : Post).Fits where
  current := fits.current
  timed := fits.timed
  context := fits.context
  idle := fun h => by
    obtain ⟨plan, kinds, rest⟩ := fits.idle h
    rw [kinds] at sub
    exact ⟨plan, List.subset_nil.1 sub, rest⟩
  area := fun h => (fits.area h).imp_right fun kinds k mem => kinds k (sub mem)
  scan := fun h => (fits.scan h).imp_right fun ⟨kinds, rest⟩ => ⟨fun k mem => kinds k (sub mem), rest⟩

/-- An entry of the port's kind in the queue of a channel that is not IDLE (R59). -/
theorem Post.Fits.joined {q : List ShotKind} {k : ShotKind} (busy : p.chan ≠ .idle) (own : k = .areaShot ↔ p.kind = .area)
    (sub : ∀ x ∈ q, x = k ∨ x ∈ p.kinds) : ({ p with kinds := q } : Post).Fits where
  current := fits.current
  timed := fits.timed
  context := fits.context
  idle := fun h => absurd h busy
  area := fun h => (fits.area h).imp_right fun kinds x mem => (sub x mem).elim (fun e => e.trans (own.2 h)) (kinds x)
  scan := fun h => (fits.scan h).imp_right fun ⟨kinds, rest⟩ => by
    refine ⟨fun x mem e => (sub x mem).elim (fun same => ?_) fun mem => kinds x mem e, rest⟩
    have area := own.1 (same.symm.trans e)
    rw [h] at area
    exact nomatch area

/-- A channel that is not IDLE, under any plan (R51). -/
theorem Post.Fits.chanBusy {x : ChannelState} (busy : x ≠ .idle) (plan : Plan) (aims : Bool) :
    ({ p with chan := x, plan := plan, aims := aims } : Post).Fits :=
  { fits with idle := fun h => absurd h busy }

/-- A channel with nothing left is IDLE (R51, R71). -/
theorem Post.Fits.chanIdle (kinds : p.kinds = []) (window : p.window = none) (current : p.current = none) :
    ({ p with chan := .idle, plan := .off, aims := false } : Post).Fits :=
  { fits with idle := fun _ => ⟨rfl, kinds, rfl, window, current⟩ }

end

/-- A post whose channel settles (R71). -/
def Post.settled (p : Post) : Post :=
  if p.chan = .halting ∧ p.kinds = [] ∧ p.window = none ∧ p.port.atRest = true then
    { p with chan := .idle, plan := .off, aims := false }
  else p

theorem atRest_unarmed {x : PortState} (rest : x.atRest = true) : x ≠ .armed ∧ x ≠ .receiving ∧ x ≠ .draining := by
  cases x <;> revert rest <;> decide

theorem Post.Fits.settled {p : Post} (fits : p.Fits) : p.settled.Fits := by
  unfold Post.settled
  split_ifs with rest
  · obtain ⟨-, kinds, window, rest⟩ := rest
    obtain ⟨unarmed, still, -⟩ := atRest_unarmed rest
    exact fits.chanIdle kinds window (fits.resting unarmed still).1
  · exact fits

theorem settleChannel_posts (n : Unit8) (s : State) : (settleChannel n s).posts = update s.posts n (s.posts n).settled := by
  rw [settleChannel_eq, posts_setChan]
  refine congrArg (update s.posts n) ?_
  unfold settledChan Post.settled
  have same : (s.posts n).kinds = [] ↔ (s.chan n).queue = [] := by simp [State.posts, postOf]
  have shut : (s.posts n).window = none ↔ (s.chan n).window = none := by simp [State.posts, postOf]
  have rests : ((s.posts n).chan = .halting ∧ (s.posts n).kinds = [] ∧ (s.posts n).window = none ∧ (s.posts n).port.atRest = true) ↔
      ((s.chan n).state = .halting ∧ (s.chan n).queue = [] ∧ (s.chan n).window = none ∧ (s.port n).state.atRest = true) := by
    rw [same, shut]
    rfl
  rw [if_congr rests rfl rfl]
  split <;> rfl

theorem settled_held (p : Post) : p.settled.held = p.held := by
  unfold Post.settled
  split <;> rfl

theorem Good.settle {s : State} (ok : Good s) (n : Unit8) : Good (settleChannel n s) :=
  ok.repost (by rw [settleChannel_eq]; rfl) (settleChannel_posts n s) (settled_held _) (ok.units n).settled

end Sys2Proof.Machine
end

section
/-! PROOFS. Records freed and evicted, room for lines, new records, and the end of a frame, in the ledger (O59). -/

namespace Sys2Proof.Machine

open Function (update)

/-! ## Records freed (R115, R119, R127) -/

/-- A record that has ended is no port's frame. -/
theorem Good.unheld {s : State} (ok : Good s) {h : Handle} {r : FrameRecord} (rec : recordAt s h = some r)
    (ended : r.state.finished = true) (n : Unit8) (x : RecordState) : holders s.posts n ≠ some (h, x) := by
  obtain ⟨-, -, -, held, -⟩ := ok.record rec
  intro holds
  obtain ⟨-, rfl, unended⟩ := (held n x).1 holds
  exact Bool.false_ne_true (unended.symm.trans ended)

/-- Neither part of a record is being sent. -/
theorem entry_still {r : FrameRecord} (idle : r.anySending = false) (p : Part) : r.entry.part p ≠ .sending := by
  simp only [FrameRecord.anySending, Bool.or_eq_false_iff, decide_eq_false_iff_not] at idle
  obtain ⟨preview, full⟩ := idle
  cases p with
  | full => exact mt r.fullState.part_eq.2.2.1.1 full
  | preview => exact mt r.previewState.part_eq.2.1.1 preview

/-- A record that has ended and is not being sent is freed (R130, R131). -/
theorem Good.free {s : State} (ok : Good s) {h : Handle} {r : FrameRecord} (rec : recordAt s h = some r)
    (ended : r.state.finished = true) (idle : r.anySending = false) : Good (freeRecord h s) := by
  have posts := posts_of_front (freeRecord_front h s)
  refine ⟨?_, fun n => posts ▸ ok.units n⟩
  rw [ledger_freeRecord rec, posts]
  exact ok.books.free (ledger_entry_some rec) (entry_still idle) (ok.unheld rec ended) fun _ _ _ _ => .rfl

theorem eligible_idle {r : FrameRecord} (fits : r.eligible = true) : r.state.finished = true ∧ r.anySending = false := by
  obtain ⟨state, -, preview, full, -⟩ := (eligible_iff r).1 fits
  refine ⟨(finished_iff _).2 state, ?_⟩
  rcases preview with preview | preview <;> rcases full with full | full <;> simp [FrameRecord.anySending, preview, full]

theorem Good.evict {s : State} (ok : Good s) {h : Handle} (fits : eligibleAt s h = true) : Good (Machine.evict h s) := by
  obtain ⟨r, rec, eligible⟩ := (eligibleAt_iff s h).1 fits
  obtain ⟨ended, idle⟩ := eligible_idle eligible
  exact Same.good (s := freeRecord h s) ⟨rfl, rfl⟩ (ok.free rec ended idle)

theorem Good.evictUntil {s : State} (ok : Good s) (k : Nat) (l : List Handle) : Good (Machine.evictUntil k l s) := by
  induction l generalizing s with
  | nil => exact ok
  | cons h l ih =>
    unfold Machine.evictUntil
    split
    · exact ok
    · split
      · exact ih (ok.evict ‹_›)
      · exact ih ok

/-! ## Room for a line (R116, R117) -/

theorem takeBlocks_ledger (k : Nat) (s : State) :
    (takeBlocks k s).2.ledger = { s.ledger with pool := s.fsto.pool.drop k } := by
  rw [takeBlocks_state]
  split
  · exact (setBoth_same _ _).ledger
  · rfl

theorem takeBlocks_record (k : Nat) (s : State) (h : Handle) : recordAt (takeBlocks k s).2 h = recordAt s h := by
  rw [takeBlocks_state]
  split
  · exact recordAt_of_fsto (setBoth_fsto _ _) h
  · rfl

/-- A record with blocks more (R115, R117). -/
theorem Good.roomEnough {s : State} (ok : Good s) {h : Handle} {r : FrameRecord} (rec : recordAt s h = some r) {full preview : Bool}
    (enough : full.toNat + preview.toNat ≤ s.fsto.pool.length) : Good (roomRequest h full preview s).2 := by
  have rec' := (takeBlocks_record (full.toNat + preview.toNat) s h).trans rec
  have more : ((r.fullBlocks ++ s.fsto.pool.take full.toNat) ++
      (r.previewBlocks ++ (s.fsto.pool.drop full.toNat).take preview.toNat)).Perm
      ((r.fullBlocks ++ r.previewBlocks) ++ s.fsto.pool.take (full.toNat + preview.toNat)) := by
    rw [List.take_add]
    refine List.perm_iff_count.2 fun b => ?_
    simp only [List.count_append]
    omega
  have posts : (roomRequest h full preview s).2.posts = s.posts := posts_of_front (roomRequest_front h full preview s)
  refine ⟨?_, fun n => posts ▸ ok.units n⟩
  rw [posts, roomRequest_enough enough, ledger_modRecord rec', takeBlocks_ledger]
  exact ok.books.grow (ledger_entry_some rec) more

theorem roomRequest_evicted {full preview : Bool} {s t : State} (evicted : evictUntil (full.toNat + preview.toNat) s.fsto.age s = t)
    (h : Handle) : roomRequest h full preview s = if full.toNat + preview.toNat ≤ t.fsto.pool.length then roomRequest h full preview t
      else (false, t.setFsto { t.fsto with blockShortages := t.fsto.blockShortages + 1 }) := by
  unfold roomRequest
  dsimp only
  rw [asked_eq, evicted]
  by_cases enough : full.toNat + preview.toNat ≤ t.fsto.pool.length
  · rw [if_pos enough, if_pos enough, evictUntil_enough enough, if_pos enough]
  · rw [if_neg enough, if_neg enough]

theorem Good.room {s : State} (ok : Good s) {n : Unit8} {h : Handle} (cur : (s.port n).current = some h) (full preview : Bool) :
    Good (roomRequest h full preview s).2 := by
  have good := ok.evictUntil (full.toNat + preview.toNat) s.fsto.age
  have front := evictUntil_front (full.toNat + preview.toNat) s.fsto.age s
  rw [roomRequest_evicted rfl]
  generalize Machine.evictUntil _ _ s = t at good front ⊢
  split_ifs with enough
  · obtain ⟨r, rec, -⟩ := good.held ((congrArg Port.current (port_of_front front n)).trans cur)
    exact good.roomEnough rec enough
  · exact Same.good (s := t) ⟨rfl, rfl⟩ good

/-! ## Records for shots (R62, R119, R120) -/

/-- A slot made free for a record (R120). -/
theorem Good.roomFor {s t : State} {i : Fin 512} (ok : Good s) (room : RoomFor s i t) :
    Good t ∧ t.posts = s.posts ∧ t.fsto.slots[i].record = none := by
  obtain ⟨free, rfl⟩ | ⟨old, -, oldest, rfl, rfl⟩ := room
  · exact ⟨ok, rfl, freeSlot_some free⟩
  · have fits := ((oldestEligible_iff s old).1 oldest).1
    obtain ⟨r, rec, -⟩ := (eligibleAt_iff s old).1 fits
    refine ⟨ok.evict fits, posts_of_front (evict_front old s), ?_⟩
    rw [evict_some rec]
    simp

theorem withRecord_ledger (i : Fin 512) (r : FrameRecord) (t : State) :
    (withRecord i r t).ledger = t.ledger.setEntry (slotHandle t i) r.entry := ledger_setSlot t (slotHandle t i) r

/-- A new record in a free slot, with the unit that takes it as its frame (R63, R81, R99). -/
theorem Good.place {s t u : State} {i : Fin 512} (ok : Good s) (room : RoomFor s i t) {n : Unit8} {item : Nat} {pos : Pos}
    {state : RecordState} (unended : state.finished = false) (ledger : u.ledger = (withRecord i (shotRecord n item pos state s) t).ledger)
    {p : Post} (posts : u.posts = update s.posts n p) (held : p.held = some (slotHandle t i, state))
    (vacant : (s.posts n).current = none) (fits : p.Fits) : Good u := by
  obtain ⟨good, same, free⟩ := ok.roomFor room
  refine ok.put posts fits ?_
  have slot : t.ledger.slots[i] = (t.fsto.slots[i].gen, none) := by
    rw [State.ledger, readSlots_get, free]
    rfl
  have books := good.books
  rw [same] at books
  rw [ledger, withRecord_ledger, posts, holders_update]
  refine books.place (h := slotHandle t i) slot unended rfl (fun x => ?_) ?_ fun m => ?_
  · cases x <;> rfl
  · change holders s.posts n = none
    rw [holders, vacant]
    rfl
  · exact (Function.update_apply _ _ _ _).trans (by rw [held]; rfl)

/-- What the fire stage of a channel answers (R62, R120). -/
theorem requestShot_cases (n : Unit8) (item : Nat) (pos : Pos) (filling : Bool) (s : State) :
    (∃ r t, requestShot n item pos filling s = (.error r, t) ∧ Same s t ∧ t.front = s.front) ∨
    ((s.port n).state = .idle ∧ ∃ i t, RoomFor s i t ∧ requestShot n item pos filling s =
      (.ok (slotHandle t i), withRecord i (shotRecord n item pos (if filling then .filling else .expected) s) t)) := by
  by_cases idle : (s.port n).state = .idle
  · cases free : freeSlot s with
    | some i => exact .inr ⟨idle, i, s, .inl ⟨free, rfl⟩, requestShot_placed idle (.inl ⟨free, rfl⟩) item pos filling⟩
    | none =>
      cases oldest : oldestEligible s with
      | some old =>
        have room : RoomFor s old.slot (evict old s) := .inr ⟨old, free, oldest, rfl, rfl⟩
        exact .inr ⟨idle, _, _, room, requestShot_placed idle room item pos filling⟩
      | none =>
        have counted : Same s (s.setFsto { s.fsto with recordShortages := s.fsto.recordShortages + 1 }) := ⟨rfl, rfl⟩
        exact .inl ⟨_, _, requestShot_full idle free oldest item pos filling, counted.trans (setBoth_same _ _),
          setBoth_front _ _⟩
  · obtain ⟨r, refused⟩ := portRefusal_some idle
    exact .inl ⟨_, _, requestShot_refused refused item pos filling, .refl s, rfl⟩

/-! ## The end of a port's frame (R98, R121, R123) -/

/-- A post whose port has given its frame up. -/
def Post.left (p : Post) : Post := { p with current := none, timed := false, context := none }

/-- A unit that has given its frame up, with the ledger kept. -/
structure Leaves (n : Unit8) (s t : State) : Prop where
  posts : t.posts = update s.posts n (s.posts n).left
  books : LedgerOk t.ledger (holders t.posts)

theorem Leaves.same {n : Unit8} {s t u : State} (leaves : Leaves n s t) (same : Same t u) : Leaves n s u := by
  obtain ⟨posts, books⟩ := leaves
  refine ⟨same.posts.trans posts, ?_⟩
  rw [same.ledger, same.posts]
  exact books

theorem left_of_vacant {p : Post} (fits : p.Fits) (vacant : p.current = none) : p.left = p := by
  obtain ⟨unarmed, still⟩ := fits.vacant vacant
  obtain ⟨current, timed, context⟩ := fits.resting unarmed still
  unfold Post.left
  obtain ⟨⟩ := p
  simp only at current timed context
  rw [current, timed, context]

/-- The ledger after the end of a frame. -/
theorem endFrame_ledger {n : Unit8} {h : Handle} {final : RecordState} {mark : FrameFlags → FrameFlags} {s : State} {r : FrameRecord}
    (cur : (s.port n).current = some h) (rec : recordAt s h = some r) (ended : final.finished = true) :
    (endFrame n final mark s).ledger = s.ledger.settle h r.entry final (decide (r.joinsPull s)) (decide r.showsPreview) := by
  have imagery := endFrame_imagery (mark := mark) cur rec ended
  have slots : (frameLet n h mark s).readSlots FrameRecord.entry = s.readSlots FrameRecord.entry :=
    frameLet_readSlots (fun _ _ => rfl) (fun _ _ => rfl) n h mark s
  have pool : (frameLet n h mark s).fsto.pool = s.fsto.pool := (frameLet_fstoKept n h mark s).pool
  have joins : (r.letGo h (s.packer n).context mark final s.stamp).joinsPull s ↔ r.joinsPull s := .rfl
  generalize endFrame n final mark s = t at imagery ⊢
  simp only [State.imagery, imageryWorked, Prod.mk.injEq] at imagery
  obtain ⟨fsto, pull, preview, fullLane, previewLane, -, -⟩ := imagery
  have entry : ((r.letGo h (s.packer n).context mark final s.stamp).worked s).entry =
      r.entry.settled final (decide (r.joinsPull s)) (decide r.showsPreview) := by
    refine congrArg (Entry.mk r.port final (r.fullBlocks ++ r.previewBlocks)) (funext fun p => ?_)
    cases p with
    | full =>
      dsimp only [FrameRecord.worked, FrameRecord.entry]
      rw [if_congr joins rfl rfl, apply_ite FullState.part]
      exact if_congr decide_eq_true_iff.symm rfl rfl
    | preview =>
      dsimp only [FrameRecord.worked, FrameRecord.previewSettled]
      rw [apply_ite PreviewState.part]
      exact if_congr decide_eq_true_iff.symm rfl rfl
  have read : t.readSlots FrameRecord.entry = (s.readSlots FrameRecord.entry).set h.slot
      (h.gen, some (r.entry.settled final (decide (r.joinsPull s)) (decide r.showsPreview))) := by
    rw [← slots, ← entry, State.readSlots, fsto]
    exact Vector.map_set
  unfold State.ledger Ledger.settle Ledger.setEntry
  rw [read, fsto]
  congr 1
  · funext p
    cases p with
    | full =>
      refine (congrArg (List.map ImageEntry.handle) pull).trans ?_
      rw [List.map_append, apply_ite (List.map ImageEntry.handle)]
      exact congrArg _ (if_congr (joins.trans decide_eq_true_iff.symm) rfl rfl)
    | preview =>
      refine (congrArg (List.map ImageEntry.handle) preview).trans ?_
      rw [List.map_append, apply_ite (List.map ImageEntry.handle)]
      exact congrArg _ (if_congr decide_eq_true_iff.symm rfl rfl)
  · funext p
    cases p with
    | full => exact congrArg (Option.map _) fullLane
    | preview => exact congrArg (Option.map _) previewLane

theorem endFrame_none {n : Unit8} {s : State} (vacant : (s.port n).current = none) (final : RecordState)
    (mark : FrameFlags → FrameFlags) : endFrame n final mark s = s := by
  unfold endFrame
  rw [vacant]

theorem endFrame_posts {n : Unit8} {h : Handle} {s : State} (cur : (s.port n).current = some h) (final : RecordState)
    (mark : FrameFlags → FrameFlags) : (endFrame n final mark s).posts = update s.posts n (s.posts n).left := by
  funext m
  have chan := chan_of_trgu (endFrame_trgu n final mark s) m
  have packer := endFrame_packer (final := final) (mark := mark) cur m
  by_cases own : m = n
  · subst own
    rw [if_pos rfl] at packer
    rw [Function.update_self, State.posts, chan, packer, endFrame_port, cur]
    rfl
  · rw [if_neg own] at packer
    rw [Function.update_of_ne own, State.posts, chan, packer, endFrame_port_other own]
    rfl

theorem Good.endFrame {s : State} (ok : Good s) (n : Unit8) {final : RecordState} (ended : final.finished = true)
    (mark : FrameFlags → FrameFlags) : Leaves n s (endFrame n final mark s) := by
  cases cur : (s.port n).current with
  | none =>
    rw [endFrame_none cur]
    exact ⟨(update_posts (left_of_vacant (ok.units n) cur).symm).symm, ok.books⟩
  | some h =>
    obtain ⟨r, rec, port, state⟩ := ok.held cur
    have posts := endFrame_posts cur final mark
    refine ⟨posts, ?_⟩
    rw [endFrame_ledger cur rec ended, posts]
    refine ok.books.settle (ledger_entry_some rec) ?_ ended (fun await => ?_) (fun joins => ?_) fun m => ?_
    · exact (congrArg RecordState.finished state).trans (frameState_unfinished _)
    · exact decide_eq_true (.inl (r.fullState.part_eq.1.1 await))
    · refine (of_decide_eq_true joins).imp r.fullState.part_eq.1.2 fun due => ?_
      rw [ledger_load]
      exact due.2
    · have own : r.entry.port = n := port
      rw [holders_update, Function.update_apply, own]
      rfl

theorem Good.truncate {s : State} (ok : Good s) (n : Unit8) (r : TruncReason) : Leaves n s (truncateFrame n r s) :=
  (ok.endFrame n rfl _).same (countPort_same _)

theorem Good.complete {s : State} (ok : Good s) (n : Unit8) (mark : FrameFlags → FrameFlags) :
    Leaves n s (completeFrame n mark s) := (ok.endFrame n rfl mark).same (countPort_same _)

/-- A unit that has given its frame up, changed to a post that fits. -/
theorem Leaves.good {n : Unit8} {s t u : State} (leaves : Leaves n s t) (ok : Good s) (ledger : u.ledger = t.ledger) {p : Post}
    (posts : u.posts = update t.posts n p) (vacant : p.current = none) (fits : p.Fits) : Good u := by
  have held : p.held = (t.posts n).held := by
    rw [leaves.posts, Function.update_self]
    unfold Post.held
    rw [vacant]
    rfl
  have all : u.posts = update s.posts n p := by rw [posts, leaves.posts, Function.update_idem]
  exact ok.put all fits (books_of_held leaves.books ledger posts held)

theorem Leaves.own {n : Unit8} {s t : State} (leaves : Leaves n s t) : t.posts n = (s.posts n).left := by
  rw [leaves.posts, Function.update_self]

/-- A port without a frame, with the window of its channel open as it was, or closed (R76, R88, R91, R93). -/
theorem Post.Fits.letGo {p : Post} (fits : p.Fits) {x : PortState} {w : Option Handle} (unarmed : x ≠ .armed) (still : x ≠ .receiving)
    (window : w = none ∨ w = p.window) (drain : x = .draining → p.kind = .scan → w ≠ none) :
    ({ p.left with port := x, window := w } : Post).Fits where
  current := iff_of_false Bool.false_ne_true fun h => h.elim unarmed still
  timed := iff_of_false Bool.false_ne_true unarmed
  context := (if_neg still).symm
  idle := fun h => by
    obtain ⟨plan, kinds, aims, shut, -⟩ := fits.idle h
    exact ⟨plan, kinds, aims, window.elim id fun same => same.trans shut, rfl⟩
  area := fun h => by
    obtain ⟨shut, kinds⟩ := fits.area h
    exact ⟨window.elim id fun same => same.trans shut, kinds⟩
  scan := fun h => by
    obtain ⟨-, kinds, -, -⟩ := fits.scan h
    exact ⟨unarmed, kinds, fun receiving => absurd receiving still, fun draining => drain draining h⟩

section
variable {n : Unit8} {s t : State} (leaves : Leaves n s t) (ok : Good s)
include leaves ok

/-- The port goes to its next state after its frame (R88, R89, R91). -/
theorem Leaves.portTo {x : PortState} (unarmed : x ≠ .armed) (still : x ≠ .receiving)
    (drain : x = .draining → (s.posts n).kind = .scan → (s.posts n).window ≠ none) {f : Port → Port}
    (only : ∀ c p k, postOf c (f p) k = { postOf c p k with port := x }) : Good (modPort n f t) := by
  have own := leaves.own
  refine leaves.good ok rfl (posts_modPort n t f) ?_ ?_
  · rw [only]
    exact congrArg Post.current own
  · rw [only]
    change ({ t.posts n with port := x } : Post).Fits
    rw [own]
    exact (ok.units n).letGo unarmed still (.inr rfl) drain

/-- The window closes after the frame of its port (R65, R69). -/
theorem Leaves.shut {x : PortState} (unarmed : x ≠ .armed) (still : x ≠ .receiving)
    (drain : x = .draining → (s.posts n).kind ≠ .scan) {u : State} (ledger : u.ledger = t.ledger)
    (posts : u.posts = update t.posts n { t.posts n with port := x, window := none }) : Good u := by
  rw [leaves.own] at posts
  exact leaves.good ok ledger posts rfl ((ok.units n).letGo unarmed still (.inl rfl) fun h scan => absurd scan (drain h))

end

end Sys2Proof.Machine
end

section
/-! PROOFS. Windows, shots, shot queues and halts, in the posts (O59). -/

namespace Sys2Proof.Machine

open Function (update)

/-! ## The close of a window (R65, R93) -/

theorem addMissing_same (h : Handle) (s : State) : Same s (addMissing h s) := modRecord_same (fun _ => by rfl) h s

theorem lineMissed_same (w : Window) (s : State) : Same s (lineMissed w s) := by
  unfold lineMissed
  split
  · exact addMissing_same _ s
  · exact .refl s

section
variable {n : Unit8} {s : State}

theorem Leaves.of_vacant {t : State} (ok : Good s) (same : Same s t) (vacant : (s.posts n).current = none) : Leaves n s t :=
  ⟨same.posts.trans (update_posts (left_of_vacant (ok.units n) vacant).symm).symm, (same.good ok).books⟩

/-- Under an open window a port has no frame, or the window's in reception (R63, R91). -/
theorem Good.windowFrame (ok : Good s) {w : Window} (isOpen : (s.chan n).window = some w)
    (part : ¬((s.port n).current = some w.handle ∧ (recordAt s w.handle).any (fun r => decide (r.state = .filling)) = true)) :
    (s.posts n).current = none := by
  have fits := ok.units n
  have window : (s.posts n).window = some w.handle := by simp [State.posts, postOf, isOpen]
  have scan : (s.posts n).kind = .scan := by
    cases kind : (s.posts n).kind with
    | scan => rfl
    | area => exact nomatch window.symm.trans (fits.area kind).1
  obtain ⟨unarmed, -, receiving, -⟩ := fits.scan scan
  refine (fits.resting unarmed fun still => part ?_).1
  have cur : (s.port n).current = some w.handle := (receiving still).symm.trans window
  obtain ⟨r, rec, -, state⟩ := ok.held cur
  refine ⟨cur, ?_⟩
  rw [Post.frameState, if_neg unarmed] at state
  simp [rec, state]

/-- A port under an open window is not ARMED (R91). -/
theorem Good.windowUnarmed (ok : Good s) {w : Window} (isOpen : (s.chan n).window = some w) : (s.port n).state ≠ .armed := by
  have fits := ok.units n
  cases kind : (s.posts n).kind with
  | scan => exact (fits.scan kind).1
  | area =>
    have window : (s.posts n).window = some w.handle := by simp [State.posts, postOf, isOpen]
    exact nomatch window.symm.trans (fits.area kind).1

theorem Good.closeFrame (ok : Good s) {w : Window} (isOpen : (s.chan n).window = some w) : Leaves n s (Machine.closeFrame n w s) := by
  have missed := lineMissed_same w s
  by_cases whole : ClosesWhole n w s
  · rw [closeFrame_whole whole]
    obtain ⟨posts, books⟩ := (missed.good ok).complete n id
    rw [missed.posts] at posts
    exact ⟨posts, books⟩
  · rw [closeFrame_part whole]
    exact .of_vacant ok missed (ok.windowFrame isOpen whole)

theorem closed_resting {x : PortState} (unarmed : x ≠ .armed) : x.closed ≠ .armed ∧ x.closed ≠ .receiving ∧ x.closed ≠ .draining := by
  cases x <;> first | exact absurd rfl unarmed | decide

/-- A window shut and its port's state changed, in its post. -/
theorem posts_shut (f : Port → Port) (t : State) : (modChan n (fun c => { c with window := none }) (modPort n f t)).posts =
    update t.posts n { postOf (t.chan n) (f (t.port n)) (t.packer n) with window := none } := by
  rw [posts_modChan, posts_modPort, Function.update_idem, port_modPort, if_pos rfl]
  rfl

theorem Good.takeClose (ok : Good s) (n : Unit8) : Good (Machine.takeClose n s) := by
  cases isOpen : (s.chan n).window with
  | none => rwa [takeClose_none isOpen]
  | some w =>
    rw [takeClose_some isOpen]
    have leaves := ok.closeFrame isOpen
    obtain ⟨unarmed, still, undrained⟩ := closed_resting (ok.windowUnarmed isOpen)
    have state : ((Machine.closeFrame n w s).port n).state = (s.port n).state := congrArg Post.port leaves.own
    refine Good.settle ?_ n
    refine leaves.shut ok (x := (s.port n).state.closed) unarmed still (fun drain => absurd drain undrained) rfl ?_
    rw [posts_shut, ← state]
    rfl

/-! ## Shots (R62, R63, R81) -/

/-- The post of an AREA pulse given, and of a frame that starts under a WINDOW_OPEN. -/
def Post.armedBy (h : Handle) (p : Post) : Post := { p with port := .armed, current := some h, timed := true }

/-- See `Post.armedBy`. -/
def Post.openedBy (h : Handle) (p : Post) : Post :=
  { p with port := .receiving, current := some h, context := some h, window := some h }

/-- An AREA pulse given for a new record (R81). -/
theorem Post.Fits.armedBy {p : Post} (fits : p.Fits) (busy : p.chan ≠ .idle) (area : p.kind = .area) (idle : p.port = .idle)
    (h : Handle) : (p.armedBy h).Fits where
  current := iff_of_true rfl (.inl rfl)
  timed := iff_of_true rfl rfl
  context := (fits.resting (fun e => nomatch idle.symm.trans e) fun e => nomatch idle.symm.trans e).2.2
  idle := fun h => absurd h busy
  area := fits.area
  scan := fun scan => nomatch area.symm.trans scan

/-- A frame that starts under a WINDOW_OPEN (R63, R92, R98). -/
theorem Post.Fits.openedBy {p : Post} (fits : p.Fits) (busy : p.chan ≠ .idle) (scan : p.kind = .scan) (idle : p.port = .idle)
    (h : Handle) : (p.openedBy h).Fits where
  current := iff_of_true rfl (.inr rfl)
  timed := fits.timed.trans (iff_of_false (fun e => nomatch idle.symm.trans e) fun e => nomatch e)
  context := rfl
  idle := fun h => absurd h busy
  area := fun area => nomatch area.symm.trans scan
  scan := fun h => ⟨fun e => (nomatch e), (fits.scan h).2.1, fun _ => rfl, fun e => nomatch e⟩

theorem fireArea_posts (n : Unit8) (h : Handle) (s : State) :
    (fireArea n h s).posts = update s.posts n ((s.posts n).armedBy h) := by
  have pulse : Same s (startPulse n (loadShadow n s)) := loadShadow_same.trans startPulse_same
  rw [← pulse.posts]
  exact modPort_posts fun _ _ _ => rfl

/-- A record for an AREA pulse, and its port ARMED (R62, R81). -/
theorem Good.fireArea {t : State} {i : Fin 512} (ok : Good s) (busy : (s.posts n).chan ≠ .idle) (area : (s.posts n).kind = .area)
    (idle : (s.posts n).port = .idle) (room : RoomFor s i t) (item : Nat) (pos : Pos) :
    Good (Machine.fireArea n (slotHandle t i) (withRecord i (shotRecord n item pos .expected s) t)) := by
  have fits := ok.units n
  have posts : (withRecord i (shotRecord n item pos .expected s) t).posts = s.posts := (ok.roomFor room).2.1
  have vacant : (s.posts n).current = none := (fits.resting (fun e => nomatch idle.symm.trans e) fun e => nomatch idle.symm.trans e).1
  refine ok.place room (state := .expected) rfl rfl ?_ rfl vacant (fits.armedBy busy area idle (slotHandle t i))
  rw [fireArea_posts, posts]

theorem missShot_same (item : Nat) (r : MissReason) : Same s (missShot n item r s) :=
  (report_same _ _ _ s).trans (countSkip_same.trans (setBoth_same _ _))

theorem Good.takeAreaShot (ok : Good s) (busy : (s.posts n).chan ≠ .idle) (area : (s.posts n).kind = .area) (item : Nat) (pos : Pos) :
    Good (Machine.takeAreaShot n item pos s) := by
  obtain ⟨r, t, refused, same, -⟩ | ⟨idle, i, t, room, granted⟩ := requestShot_cases n item pos false s
  · rw [takeAreaShot_missed refused]
    exact (same.trans (missShot_same _ _)).good ok
  · rw [takeAreaShot_fired granted]
    exact (report_same _ _ _ _).good (ok.fireArea busy area idle room item pos)

theorem windowStarted_posts (h : Handle) (s : State) : (windowStarted n h s).posts =
    update s.posts n { s.posts n with port := .receiving, current := some h } := by
  have shadow : Same s (loadShadow n s) := loadShadow_same
  rw [← shadow.posts]
  exact modPort_posts (g := fun p => { p with port := .receiving, current := some h }) fun _ _ _ => rfl

theorem windowOpened_posts (item : Nat) (pos : Pos) (h : Handle) (r : FrameRecord) (s : State) : (windowOpened n item pos h r s).posts =
    update s.posts n { s.posts n with context := some h, window := some h } := by
  have reported := (report_same item n (.fired h) (s.setPacker n { s.packer n with context := some (begunContext h r) })).posts
  refine (modChan_posts (g := fun p => { p with window := some h }) fun _ _ _ => rfl).trans ?_
  rw [reported, setPacker_shown, update_twice (g := fun p => { p with window := some h })]
  rfl

theorem Good.takeOpen (ok : Good s) (busy : (s.posts n).chan ≠ .idle) (scan : (s.posts n).kind = .scan) (item : Nat) (pos : Pos) :
    Good (Machine.takeOpen n item pos s) := by
  have fits := ok.units n
  obtain ⟨r, t, refused, same, front⟩ | ⟨idle, i, t, room, -⟩ := requestShot_cases n item pos true s
  · have chan : t.chan n = s.chan n := chan_of_trgu (congrArg Prod.fst front) n
    rw [takeOpen_missed refused chan, ← chan]
    refine (missShot_same _ _).good ((same.good ok).repost rfl (posts_setChan _ _ _) rfl ?_)
    exact ((same.good ok).units n).fewer (List.map_subset _ (List.filter_subset_self _))
  · rw [takeOpen_placed idle room]
    have vacant : (s.posts n).current = none := (fits.resting (fun e => nomatch idle.symm.trans e) fun e => nomatch idle.symm.trans e).1
    have posts : (withRecord i (shotRecord n item pos .filling s) t).posts = s.posts := (ok.roomFor room).2.1
    refine ok.place room (state := .filling) (item := item) (pos := pos) rfl ?_ ?_ rfl vacant
      (fits.openedBy busy scan idle (slotHandle t i))
    · exact (report_same _ _ _ _).ledger
    · rw [windowOpened_posts, windowStarted_posts, posts,
        update_twice (g := fun p => { p with context := some (slotHandle t i), window := some (slotHandle t i) })]
      rfl

/-! ## Count events on a channel (R58, R62 to R65) -/

theorem takeLineTrigger_same (p : Pos) : Same s (takeLineTrigger n p s) := by
  cases isOpen : (s.chan n).window with
  | none =>
    unfold takeLineTrigger
    rw [isOpen]
    exact .refl s
  | some w =>
    by_cases due : LineDue w p s
    · rw [takeLineTrigger_due isOpen due]
      have missed := lineMissed_same w s
      refine Same.trans (b := (lineMissed w s).setChan n (lineTriggered p w ((lineMissed w s).chan n))) (missed.trans ⟨rfl, ?_⟩)
        startPulse_same
      have window : ((lineMissed w s).posts n).window = some w.handle := by
        rw [missed.posts]
        simp [State.posts, postOf, isOpen]
      refine (posts_setChan _ _ _).trans (update_posts ?_)
      change (lineMissed w s).posts n = { (lineMissed w s).posts n with window := some w.handle }
      rw [← window]
    · rw [takeLineTrigger_idle isOpen due]
      exact .refl s

theorem Good.halting (ok : Good s) (n : Unit8) : Good (Machine.modChan n (fun c => { c with state := .halting }) s) :=
  ok.modChan (g := fun p => { p with chan := .halting }) (fun _ _ _ => rfl)
    ((ok.units n).chanBusy (by decide) _ _)

theorem Good.looseShot (ok : Good s) (busy : (s.posts n).chan ≠ .idle) (p : Pos) : Good (Machine.looseShot n p s) := by
  cases kind : (s.posts n).kind with
  | scan =>
    rw [looseShot_scan kind]
    exact countSkip_same.good ok
  | area =>
    have area : (s.port n).kind ≠ .scan := fun scan => nomatch kind.symm.trans scan
    obtain ⟨r, t, refused, same, -⟩ | ⟨idle, i, t, room, granted⟩ := requestShot_cases n 0 p false s
    · rw [looseShot_missed area refused]
      exact (same.trans countSkip_same).good ok
    · rw [looseShot_fired area granted]
      exact ok.fireArea busy kind idle room 0 p

theorem Good.takeLooseTarget (ok : Good s) (n : Unit8) (p : Pos) : Good (Machine.takeLooseTarget n p s) := by
  by_cases reached : ∃ t, (s.chan n).freeRun = some t ∧ (s.chan n).state = .running ∧ t.next = p
  · obtain ⟨t, free, running, here⟩ := reached
    have taken : Same s (targetTaken n p t s) := by
      refine ⟨rfl, (posts_setChan _ _ _).trans (update_posts ?_)⟩
      have aims : (s.posts n).aims = true := by simp [State.posts, postOf, free]
      change s.posts n = { s.posts n with aims := true }
      rw [← aims]
    have busy : ((targetTaken n p t s).posts n).chan ≠ .idle := by
      rw [taken.posts]
      exact fun idle => nomatch running.symm.trans idle
    have shot := (taken.good ok).looseShot busy p
    have eq : Machine.takeLooseTarget n p s = settleChannel n (if t.remaining.map (· - 1) = some 0 then
        Machine.modChan n (fun c => { c with state := .halting }) (Machine.looseShot n p (targetTaken n p t s))
        else Machine.looseShot n p (targetTaken n p t s)) := by
      unfold Machine.takeLooseTarget
      rw [free]
      exact if_pos (by rw [running, here]; simp)
    rw [eq]
    refine Good.settle ?_ n
    split
    · exact shot.halting n
    · exact shot
  · rwa [takeLooseTarget_idle fun t free running here => reached ⟨t, free, running, here⟩]

/-- A queue loses entries (R61, R62, R69). -/
theorem Good.fewerEntries (ok : Good s) {q : List ShotEntry} (sub : q ⊆ (s.chan n).queue) :
    Good (s.setChan n { s.chan n with queue := q }) :=
  ok.repost rfl (posts_setChan _ _ _) rfl ((ok.units n).fewer (List.map_subset _ sub))

/-- An entry in the queue is of the port's kind, and its channel is not IDLE (R51, R59). -/
theorem Good.entry (ok : Good s) {e : ShotEntry} (mem : e ∈ (s.chan n).queue) :
    (s.posts n).chan ≠ .idle ∧ (e.kind = .areaShot ↔ (s.posts n).kind = .area) := by
  have fits := ok.units n
  have kind : e.kind ∈ (s.posts n).kinds := List.mem_map_of_mem mem
  refine ⟨fun idle => ?_, fun area => ?_, fun area => (fits.area area).2 _ kind⟩
  · rw [(fits.idle idle).2.1] at kind
    exact nomatch kind
  · cases own : (s.posts n).kind with
    | area => rfl
    | scan => exact absurd area ((fits.scan own).2.1 _ kind)

theorem Good.takeHead (ok : Good s) {e : ShotEntry} {l : List ShotEntry} (q : (s.chan n).queue = e :: l) :
    Good (takeEntry n e (s.setChan n { s.chan n with queue := l })) := by
  have mem : e ∈ (s.chan n).queue := q ▸ List.mem_cons_self
  obtain ⟨busy, own⟩ := ok.entry mem
  have popped := ok.fewerEntries (n := n) (q := l) (q ▸ List.subset_cons_self _ _)
  have post : (s.setChan n { s.chan n with queue := l }).posts n = { s.posts n with kinds := l.map (·.kind) } := by
    rw [posts_setChan, Function.update_self]
    rfl
  have busy' : ((s.setChan n { s.chan n with queue := l }).posts n).chan ≠ .idle := by
    rw [post]
    exact busy
  have kind : ((s.setChan n { s.chan n with queue := l }).posts n).kind = (s.posts n).kind := by rw [post]
  unfold takeEntry
  cases taken : e.kind with
  | areaShot => exact popped.takeAreaShot busy' (kind.trans (own.1 taken)) e.item e.pos
  | windowOpen =>
    refine popped.takeOpen busy' (kind.trans ?_) e.item e.pos
    cases scan : (s.posts n).kind with
    | scan => rfl
    | area => exact nomatch taken.symm.trans (own.2 scan)
  | windowClose => exact popped.takeClose n

theorem Good.takeHeads (ok : Good s) (n : Unit8) (p : Pos) (k : Nat) : Good (Machine.takeHeads n p k s) := by
  induction k generalizing s with
  | zero => exact ok
  | succ k ih =>
    cases q : (s.chan n).queue with
    | nil =>
      unfold Machine.takeHeads
      rw [q]
      exact ok
    | cons e l =>
      by_cases here : e.pos = p
      · rw [takeHeads_next q here]
        exact ih (ok.takeHead q)
      · rwa [takeHeads_stop (by simp [q, here])]

theorem Good.reachChannel (ok : Good s) (n : Unit8) (p : Pos) : Good (Machine.reachChannel n p s) := by
  unfold Machine.reachChannel
  extract_lets s1 s2
  have held : Good s1 := by
    change Good (if _ then _ else _)
    split
    · exact ok.takeClose n
    · exact ok
  have heads : Good s2 := held.takeHeads n p _
  clear_value s2
  exact (((takeLineTrigger_same p).good heads).takeLooseTarget n p).settle n

/-! ## Shot queues (R59 to R61) -/

theorem missSchedule_same (item : Nat) (r : MissReason) : Same s (missSchedule n item r s) :=
  Same.trans (b := reportAtCreation item n (.missed r) s) ⟨rfl, rfl⟩ (countSkip_same.trans (setBoth_same _ _))

theorem Good.queueEntry (ok : Good s) {e : ShotEntry} (busy : (s.posts n).chan ≠ .idle)
    (own : e.kind = .areaShot ↔ (s.posts n).kind = .area) : Good (Machine.queueEntry n e s) := by
  refine ok.repost rfl (posts_setChan _ _ _) rfl ((ok.units n).joined busy own fun k mem => ?_)
  obtain ⟨x, queued, rfl⟩ := List.mem_map.1 mem
  exact (List.mem_cons.1 ((placeEntry_perm _ _).mem_iff.1 queued)).imp (congrArg _) (List.mem_map_of_mem (f := ShotEntry.kind))

theorem Good.scheduleShot (ok : Good s) {kind : ShotKind} (busy : (s.posts n).chan ≠ .idle)
    (own : kind = .areaShot ↔ (s.posts n).kind = .area) (item : Nat) (pos : Pos) :
    Good (Machine.scheduleShot n item pos kind s) := by
  rw [scheduleShot_eq]
  split
  · exact (missSchedule_same _ _).good ok
  · split
    · exact (missSchedule_same _ _).good ok
    · exact ok.queueEntry busy own

theorem Good.queueClose (ok : Good s) (n : Unit8) (item : Nat) (pos : Pos) :
    Good (scheduleClose.queueCloseIfOpen n item pos s) := by
  unfold scheduleClose.queueCloseIfOpen
  split
  · rename_i queued
    obtain ⟨e, mem, found⟩ := List.any_eq_true.1 queued
    simp only [Bool.and_eq_true, decide_eq_true_eq] at found
    obtain ⟨busy, own⟩ := ok.entry mem
    refine ok.queueEntry busy ⟨fun e => (nomatch e), fun area => ?_⟩
    exact nomatch found.2.symm.trans (own.2 area)
  · exact ok

/-- An open window gets its close (R60 case 5). -/
theorem windowClose_same {w w' : Window} (isOpen : (s.chan n).window = some w) (handle : w'.handle = w.handle) :
    Same s (Machine.modChan n (fun c => { c with window := some w' }) s) := by
  refine ⟨rfl, (modChan_posts (g := fun p => { p with window := some w'.handle }) fun _ _ _ => rfl).trans (update_posts ?_)⟩
  have window : (s.posts n).window = some w'.handle := by simp [State.posts, postOf, isOpen, handle]
  rw [← window]

theorem Good.scheduleClose (ok : Good s) (n : Unit8) (item : Nat) (pos : Pos) : Good (Machine.scheduleClose n item pos s) := by
  unfold Machine.scheduleClose
  split
  · rename_i w isOpen
    split
    · split
      · exact ok.takeClose n
      · exact (windowClose_same (w' := { w with close := some (pos, .held) }) isOpen rfl).good ok
    · exact ok.queueClose n item pos
  · exact ok.queueClose n item pos

theorem Good.dropEntries (ok : Good s) (item : Nat) (n : Unit8) : Good (Machine.dropEntries item n s) := by
  refine Good.settle ?_ n
  refine ok.repost rfl (posts_modChan _ _ _) rfl ?_
  have window : ((s.chan n).window.map (detached item)).map (·.handle) = (s.chan n).window.map (·.handle) := by
    cases (s.chan n).window with
    | none => rfl
    | some w => by_cases own : w.item = item <;> simp [detached, own]
  have fewer := (ok.units n).fewer (q := ((s.chan n).queue.filter fun e => decide (e.item ≠ item)).map (·.kind))
    (List.map_subset _ (List.filter_subset_self _))
  have same : postOf { s.chan n with
      queue := (s.chan n).queue.filter fun e => decide (e.item ≠ item)
      window := (s.chan n).window.map (detached item) } (s.port n) (s.packer n) =
      { s.posts n with kinds := ((s.chan n).queue.filter fun e => decide (e.item ≠ item)).map (·.kind) } := by
    unfold postOf
    rw [window]
    rfl
  exact same ▸ fewer

/-- What every member of a list keeps, its members keep in any order. -/
theorem Good.forEachFree {α : Type} {l : List α} {f : α → State → State} (keeps : ∀ x ∈ l, ∀ s, Good s → Good (f x s))
    (ok : Good s) : Good (Machine.forEachFree l f s) :=
  forEachFree_rel (R := fun s t => Good s → Good t) (fun _ => id) (fun h k ok => k (h ok))
    (fun s _ ok => Same.good (s := s) ⟨rfl, rfl⟩ ok) keeps s ok

theorem Good.foldl {α : Type} {l : List α} {f : State → α → State} (keeps : ∀ x ∈ l, ∀ s, Good s → Good (f s x)) (ok : Good s) :
    Good (l.foldl f s) :=
  foldl_rel (R := fun s t => Good s → Good t) (fun _ => id) (fun h k ok => k (h ok)) l keeps s ok

theorem Good.leaveQueues (ok : Good s) (item : Nat) : Good (Machine.leaveQueues item s) :=
  Good.forEachFree (fun n _ _ ok => ok.takeClose n) (Good.foldl (fun n _ _ ok => ok.dropEntries item n) ok)

/-! ## Halts (R67 to R70) -/

theorem Good.softHalt (ok : Good s) (n : Unit8) : Good (Machine.softHalt n s) := by
  unfold Machine.softHalt
  dsimp only
  split
  · refine Good.settle ?_ n
    exact ok.repost rfl (posts_setChan _ _ _) rfl ((ok.units n).chanBusy (x := .halting) (by decide) _ _)
  · exact ok

theorem reportHalted_same (q : List ShotEntry) : Same s (reportHalted n q s) := by
  induction q generalizing s with
  | nil => exact .refl s
  | cons e q ih =>
    unfold reportHalted
    split
    · exact ih
    · exact (countSkip_same.trans (report_same _ _ _ _)).trans ih

/-- The post of a channel with neither queue nor target. -/
def Post.unasked (p : Post) : Post := { p with kinds := [], aims := false }

theorem haltReported_posts (n : Unit8) (s : State) : (haltReported n s).posts = update s.posts n (s.posts n).unasked := by
  refine (modChan_posts (g := fun p => { p with aims := false }) fun _ _ _ => rfl).trans ?_
  rw [(reportHalted_same _).posts, modChan_posts (g := fun p => { p with kinds := [] }) fun _ _ _ => rfl,
    update_twice (g := fun p => { p with aims := false })]
  rfl

theorem Good.haltReported (ok : Good s) (busy : (s.chan n).state ≠ .idle) : Good (Machine.haltReported n s) := by
  refine ok.repost (reportHalted_same _).ledger (haltReported_posts n s) rfl ?_
  exact ((ok.units n).fewer (List.nil_subset _)).chanBusy busy _ _

/-- Where a hard halt cuts no frame, there is none (R69 step 3). -/
theorem Good.uncut (ok : Good s) (uncut : ¬haltCuts n s) : (s.posts n).current = none := by
  cases isOpen : (s.chan n).window with
  | none =>
    rw [haltCuts_none isOpen, not_or] at uncut
    exact ((ok.units n).resting uncut.1 uncut.2).1
  | some w =>
    rw [haltCuts_window isOpen, isFilling_eq] at uncut
    exact ok.windowFrame isOpen uncut

/-- The port after a hard halt has no frame, and it is not a SCAN port left DRAINING (R69 step 3). -/
theorem Good.haltedPort (ok : Good s) (n : Unit8) : let x := Machine.haltedPort (s.chan n).window (s.port n).state
    x ≠ .armed ∧ x ≠ .receiving ∧ (x = .draining → (s.posts n).kind ≠ .scan) := by
  cases isOpen : (s.chan n).window with
  | none =>
    have shut : (s.posts n).window = none := by simp [State.posts, postOf, isOpen]
    have area (drains : (s.port n).state = .receiving ∨ (s.port n).state = .draining) : (s.posts n).kind ≠ .scan := by
      intro scan
      obtain ⟨-, -, receiving, draining⟩ := (ok.units n).scan scan
      rcases drains with still | drains
      · have some := (ok.units n).current.2 (.inr still)
        rw [← receiving still, shut] at some
        exact nomatch some
      · exact draining drains shut
    cases state : (s.port n).state with
    | receiving => exact ⟨fun e => (nomatch e), fun e => (nomatch e), fun _ => area (.inl state)⟩
    | draining => exact ⟨fun e => (nomatch e), fun e => (nomatch e), fun _ => area (.inr state)⟩
    | disabled | idle | armed | unlocked => exact ⟨fun e => (nomatch e), fun e => (nomatch e), fun e => nomatch e⟩
  | some w =>
    have unarmed := ok.windowUnarmed isOpen
    cases state : (s.port n).state with
    | armed => exact absurd state unarmed
    | receiving | draining | disabled | idle | unlocked =>
      exact ⟨fun e => (nomatch e), fun e => (nomatch e), fun e => nomatch e⟩

theorem haltLeaves_posts (n : Unit8) (u v : State) : (haltLeaves n u v).posts = update v.posts n { v.posts n with
    chan := .idle, plan := .off, window := none, port := Machine.haltedPort (u.chan n).window (u.port n).state } := by
  unfold haltLeaves
  rw [posts_setChan, posts_setPort, Function.update_idem, State.port_setPort]
  rfl

theorem Good.hardHalt (ok : Good s) (n : Unit8) : Good (Machine.hardHalt n s) := by
  by_cases busy : (s.chan n).state = .idle
  · rwa [show Machine.hardHalt n s = s from if_pos busy]
  · obtain ⟨v, cut, ends⟩ := hardHalt_cut busy
    have reported := ok.haltReported busy
    have leaves : Leaves n (Machine.haltReported n s) v := by
      obtain ⟨-, rfl⟩ | ⟨uncut, rfl⟩ := cut
      · exact reported.truncate n .halted
      · refine .of_vacant reported (.refl _) ?_
        rw [haltReported_posts, Function.update_self]
        exact ok.uncut uncut
    obtain ⟨unarmed, still, undrained⟩ := ok.haltedPort n
    have own := leaves.own
    rw [haltReported_posts, Function.update_self] at own
    rw [ends]
    refine leaves.good reported rfl (haltLeaves_posts n s v) ?_ ?_
    · exact congrArg Post.current own
    · rw [own]
      have fits := (ok.units n).letGo unarmed still (.inl rfl) fun drain scan => absurd scan (undrained drain)
      exact (fits.fewer (List.nil_subset _)).chanIdle rfl rfl rfl

theorem Good.stopHalt (ok : Good s) : Good (Machine.stopHalt s) := Good.foldl (fun n _ s ok => by
  split
  · exact ok
  · exact ok.softHalt n) ok

theorem Good.untilEdge (ok : Good s) (input : AuxInput) (pos : Pos) (stamp : Stamp) : Good (Machine.untilEdge input pos stamp s) :=
  Good.forEachFree (fun n _ s ok => by
    have marked : Good (Machine.modChan n (fun c => { c with untilMark := some (pos, stamp) }) s) :=
      (modChan_same fun _ _ _ => by rfl).good ok
    unfold untilHalt
    dsimp only
    split
    · exact marked.hardHalt n
    · exact marked.softHalt n) ok

end

end Sys2Proof.Machine
end

section
/-! PROOFS. The words of a port, its lines, its frame window and its lock, in the ledger and the posts (O59). -/

namespace Sys2Proof.Machine

open Function (update)

variable {n : Unit8} {s : State}

/-! ## Frames that start and end (R82, R88) -/

theorem gapCheck_same (k : BitVec 16) : Same s (gapCheck n k s) := by
  rw [gapCheck_eq]
  exact modPort_same (f := Port.seen k) fun _ _ _ => by rfl

/-- A frame that starts at an FS (R82). -/
def Post.startedBy (h : Handle) (p : Post) : Post := { p with port := .receiving, timed := false, context := some h }

theorem Post.Fits.startedBy {p : Post} (fits : p.Fits) (area : p.kind = .area) {h : Handle} (cur : p.current = some h) :
    (p.startedBy h).Fits where
  current := iff_of_true (congrArg Option.isSome cur) (.inr rfl)
  timed := iff_of_false Bool.false_ne_true fun e => nomatch e
  context := cur.symm
  idle := fits.idle
  area := fits.area
  scan := fun scan => nomatch area.symm.trans scan

theorem Good.startFrame (ok : Good s) (armed : (s.port n).state = .armed) (area : (s.port n).kind = .area) (k : BitVec 16) :
    Good (Machine.startFrame n k s) := by
  have fits := ok.units n
  obtain ⟨h, cur⟩ := Option.isSome_iff_exists.1 (fits.current.2 (.inl armed))
  obtain ⟨r, rec, port, state⟩ := ok.held cur
  have expected : r.state = .expected := state.trans (if_pos armed)
  have begun : recordAt (modPort n Port.receives (modRecord h (FrameRecord.begun k) s)) h = some (r.begun k) :=
    recordAt_modRecord _ rec
  have record : (modRecord h (FrameRecord.begun k) s).posts = s.posts := posts_of_front (modRecord_front h _ s)
  have posts : (Machine.startFrame n k s).posts = update s.posts n ((s.posts n).startedBy h) := by
    rw [startFrame_some cur, beginContext_some begun, setPacker_shown,
      modPort_posts (g := fun p => { p with port := .receiving, timed := false }) fun _ _ _ => rfl,
      record, Function.update_idem, Function.update_self]
    rfl
  have ledger : (Machine.startFrame n k s).ledger = s.ledger.setEntry h { r.entry with state := .filling } := by
    rw [startFrame_some cur, beginContext_some begun]
    exact ledger_modRecord rec _
  refine ok.put posts (fits.startedBy area cur) ?_
  rw [ledger, posts]
  refine ok.books.start (ledger_entry_some rec) expected fun m => ?_
  have own : r.entry.port = n := port
  have held : ((s.posts n).startedBy h).held = some (h, .filling) := by
    have same : ((s.posts n).startedBy h).current = some h := cur
    rw [Post.held, same]
    rfl
  rw [holders_update, Function.update_apply, own, held]

theorem Good.drains (ok : Good s) (area : (s.port n).kind = .area) (unarmed : (s.port n).state ≠ .armed)
    (still : (s.port n).state ≠ .receiving) : Good (unsolicited n s) := by
  have vacant := ((ok.units n).resting unarmed still).1
  exact (Leaves.of_vacant ok (.refl s) vacant).portTo ok (x := .draining) (by decide) (by decide)
    (fun _ scan => nomatch area.symm.trans scan) fun _ _ _ => rfl

theorem Good.takeFs (ok : Good s) (n : Unit8) (k : BitVec 16) : Good (Machine.takeFs n k s) := by
  cases heard : delivers n s with
  | false => rwa [(words_unheard heard k []).1]
  | true =>
    cases kind : (s.port n).kind with
    | scan => rwa [(words_scan heard kind k).1]
    | area =>
      have seen := (gapCheck_same (n := n) k).good ok
      have port : (gapCheck n k s).port n = (s.port n).seen k := by rw [gapCheck_eq, State.port_setPort]
      have area : ((gapCheck n k s).port n).kind = .area := port ▸ kind
      have state : ((gapCheck n k s).port n).state = (s.port n).state := by rw [port]; rfl
      obtain ⟨drains, starts, ends⟩ := takeFs_area heard kind k
      cases was : (s.port n).state with
      | disabled | unlocked =>
        rwa [(words_shut (by simp [was]) k []).1]
      | idle | draining =>
        rw [drains (by simp [was])]
        exact seen.drains area (by simp [state, was]) (by simp [state, was])
      | armed =>
        rw [starts was]
        exact seen.startFrame (state.trans was) area k
      | receiving =>
        rw [ends was]
        exact (seen.complete n _).portTo seen (x := .draining) (by decide) (by decide)
          (fun _ scan => nomatch area.symm.trans scan) fun _ _ _ => rfl

theorem Leaves.settleAs {t : State} (leaves : Leaves n s t) (ok : Good s) {x : PortState} (rest : x.atRest = true) :
    Good (Machine.settleAs n x t) := by
  obtain ⟨unarmed, still, undrained⟩ := atRest_unarmed rest
  exact (leaves.portTo ok unarmed still (fun drain => absurd drain undrained) fun _ _ _ => rfl).settle n

theorem Good.settleAs (ok : Good s) {x : PortState} (rest : x.atRest = true) (vacant : (s.posts n).current = none) :
    Good (Machine.settleAs n x s) := (Leaves.of_vacant ok (.refl s) vacant).settleAs ok rest

theorem Good.takeFe (ok : Good s) (n : Unit8) : Good (Machine.takeFe n s) := by
  cases heard : delivers n s with
  | false => rwa [(words_unheard heard 0 []).2.2]
  | true =>
    cases kind : (s.port n).kind with
    | scan => rwa [(words_scan heard kind 0).2]
    | area =>
      obtain ⟨strays, ends, rests⟩ := takeFe_area heard kind
      cases was : (s.port n).state with
      | disabled | unlocked =>
        rwa [(words_shut (by simp [was]) 0 []).2.2]
      | idle | armed =>
        rw [strays (by simp [was])]
        exact (countPort_same _).good ok
      | receiving =>
        rw [ends was]
        exact (ok.complete n _).settleAs ok rfl
      | draining =>
        rw [rests was]
        exact ok.settleAs rfl ((ok.units n).resting (fun e => nomatch was.symm.trans e) fun e => nomatch was.symm.trans e).1

/-! ## Lines (R86, R87, R91, R92, R105) -/

theorem writePreviewLine_same (ctx : FrameContext) (s : State) : Same s (writePreviewLine n ctx s) := by
  unfold writePreviewLine
  split
  · exact .refl s
  · exact Same.before (modRecord_same (fun _ => by rfl) _ _) ⟨rfl, rfl⟩

theorem accumulate_same (f : Format) (values : List Nat) (s : State) : Same s (accumulate n f values s) := by
  unfold accumulate
  cases ctx : (s.packer n).context with
  | none => exact .refl s
  | some c =>
    dsimp only
    cases c.preview with
    | none => exact .refl s
    | some d =>
      dsimp only
      split
      · exact setPacker_same (by rw [ctx]; rfl)
      · have written := writePreviewLine_same (n := n) { c with
          columns := foldColumns (s.packer n).conversion.rangeMode f d c.columns values, rows := c.rows + 1 } s
        refine written.trans (setPacker_same ?_)
        have context := congrFun (congrArg (fun f n => Post.context (f n)) written.posts) n
        refine Eq.trans ?_ context.symm
        change some c.handle = (s.packer n).context.map (·.handle)
        rw [ctx]
        rfl

theorem faultTest_same (h : Handle) (s : State) : Same s (faultTest n h s) := by
  unfold faultTest
  split
  · exact .refl s
  · extract_lets c s1 s2
    have marked : Same s s1 := modRecord_same (fun _ => by rfl) h s
    have reported : Same s s2 := marked.trans (by
      change Same s1 (if _ then _ else _)
      split
      · exact report_same _ _ _ _
      · exact .refl s1)
    split
    · split
      · exact reported.trans (setBoth_same _ _)
      · exact reported
    · exact .refl s

theorem storeLine_same (h : Handle) (line : ConvertedLine) (s : State) : Same s (storeLine n h line s) := by
  cases rec : recordAt s h with
  | none =>
    unfold storeLine
    rw [rec]
    exact .refl s
  | some r =>
    have written : Same s (lineWritten h line r s) := Same.before (modRecord_same (fun _ => by rfl) h _) ⟨rfl, rfl⟩
    rw [storeLine_some rec]
    exact (written.trans ((faultTest_same h _).trans (accumulate_same _ _ _))).trans (modRecord_same (fun _ => by rfl) h _)

/-- The port of a frame cut in its reception goes to DRAINING: a SCAN port has its window (R91). -/
theorem Good.cutToDraining (ok : Good s) (r : TruncReason) {h : Handle} (cur : (s.port n).current = some h)
    (receiving : (s.port n).kind = .scan → (s.port n).state = .receiving) :
    Good (modPort n (fun p => { p with state := .draining }) (truncateFrame n r s)) := by
  refine (ok.truncate n r).portTo ok (x := .draining) (by decide) (by decide) (fun _ scan none => ?_) fun _ _ _ => rfl
  obtain ⟨-, -, window, -⟩ := (ok.units n).scan scan
  have same : (s.posts n).window = some h := (window (receiving scan)).trans cur
  exact nomatch none.symm.trans same

theorem lengthChecked_same (h : Handle) (r : FrameRecord) (samples : List Nat) (s : State) : Same s (lengthChecked h r samples s) := by
  unfold lengthChecked
  split
  · exact .refl s
  · exact modRecord_same (fun _ => by rfl) h s

theorem lengthChecked_front (h : Handle) (r : FrameRecord) (samples : List Nat) (s : State) :
    (lengthChecked h r samples s).front = s.front := by
  unfold lengthChecked
  split
  · rfl
  · exact modRecord_front _ _ _

theorem Good.offerLine (ok : Good s) (receiving : (s.port n).state = .receiving) (samples : List Nat) :
    Good (Machine.offerLine n samples s).2 := by
  obtain ⟨h, cur⟩ := Option.isSome_iff_exists.1 ((ok.units n).current.2 (.inr receiving))
  obtain ⟨r, rec, -⟩ := ok.held cur
  have offered := offerLine_some cur rec samples
  have checked := (lengthChecked_same h r samples s).good ok
  have port := port_of_front (lengthChecked_front h r samples s) n
  generalize lengthChecked h r samples s = u at offered checked port
  generalize roomNeeded r (s.packer n).context = needed at offered
  have room := checked.room ((congrArg Port.current port).trans cur) needed.1 needed.2
  replace port := (port_of_front (roomRequest_front h needed.1 needed.2 u) n).trans port
  generalize roomRequest h needed.1 needed.2 u = answer at offered room port
  dsimp only at offered
  rw [offered]
  split
  · exact (storeLine_same _ _ _).good room
  · exact room.cutToDraining .storeFull ((congrArg Port.current port).trans cur) fun _ => (congrArg Port.state port).trans receiving

theorem clearOutstanding_same : Same s (clearOutstanding n s) := by
  refine modChan_same fun c p k => ?_
  have window : (c.window.map fun w => { w with outstanding := false }).map (·.handle) = c.window.map (·.handle) := by
    cases c.window <;> rfl
  unfold postOf
  rw [window]

theorem Good.takeAreaLine (ok : Good s) (receiving : (s.port n).state = .receiving) (samples : List Nat) :
    Good (Machine.takeAreaLine n samples s) := by
  unfold Machine.takeAreaLine
  split
  · exact ok.offerLine receiving samples
  · split
    · exact ok
    · exact (Same.trans (modRecord_same (fun _ => by rfl) _ s) (countPort_same _)).good ok

/-- A port with lines received has a frame. -/
theorem current_of_lines (lines : 0 < linesReceived n s) : ∃ h, (s.port n).current = some h := by
  cases cur : (s.port n).current with
  | some h => exact ⟨h, rfl⟩
  | none =>
    unfold linesReceived at lines
    rw [cur] at lines
    exact absurd lines (Nat.lt_irrefl 0)

theorem Good.takeScanLine (ok : Good s) (receiving : (s.port n).state = .receiving) (samples : List Nat) :
    Good (Machine.takeScanLine n samples s) := by
  unfold Machine.takeScanLine
  split
  · have taken := (clearOutstanding_same (n := n)).good (ok.offerLine receiving samples)
    dsimp only
    split
    · rename_i full
      obtain ⟨h, cur⟩ := current_of_lines (Nat.lt_of_lt_of_le (by decide) full)
      refine taken.cutToDraining .long cur fun scan => ?_
      have fits := taken.units n
      exact (fits.current.1 (congrArg Option.isSome cur)).resolve_left (fits.scan scan).1
    · exact taken
  · exact (countPort_same _).good ok

theorem Good.takeLn (ok : Good s) (n : Unit8) (l : List (BitVec 14)) : Good (Machine.takeLn n l s) := by
  unfold Machine.takeLn
  split
  · exact ok
  · dsimp only
    split
    · exact ok
    · exact ok
    · exact (countPort_same _).good ok
    · exact (countPort_same _).good ok
    · exact (countPort_same _).good ok
    · exact ok.takeAreaLine ‹_› _
    · exact ok.takeScanLine ‹_› _
    · exact (countPort_same _).good ok

/-! ## Frame windows and lock (R84, R89, R90) -/

theorem reachTime_same (t : Stamp) (s : State) : Same s (reachTime t s) := by
  rw [reachTime_rest]
  exact ⟨rfl, rfl⟩

theorem expiryReported_same (r : FrameRecord) : Same s (expiryReported n r s) := by
  unfold expiryReported
  split
  · exact report_same _ _ _ s
  · exact .refl s

theorem expireRecord_ledger {h : Handle} {r : FrameRecord} (rec : recordAt s h = some r) :
    (expireRecord n h s).ledger = s.ledger.free h r.entry := by
  have reported := expiryReported_same (n := n) (s := s) r
  have rec' : recordAt (expiryReported n r s) h = some r := (recordAt_of_fsto expiryReported_fsto h).trans rec
  have freed : (freeRecord h (expiryReported n r s)).ledger = s.ledger.free h r.entry := by
    rw [ledger_freeRecord rec', reported.ledger]
  rw [expireRecord_some rec]
  split
  · exact freed
  · exact (setBoth_same _ _).ledger.trans freed

/-- A port whose frame window has expired (R84). -/
def Post.expired (p : Post) : Post := { p with current := none, timed := false }

/-- The frame of an ARMED port is freed, and the port is at rest. -/
theorem Good.expire (ok : Good s) {h : Handle} (armed : (s.port n).state = .armed) (cur : (s.port n).current = some h) :
    Good (Machine.settleAs n .idle (modPort n Port.expired (expireRecord n h s))) := by
  obtain ⟨r, rec, port, state⟩ := ok.held cur
  have fits := ok.units n
  have expected : r.state = .expected := state.trans (if_pos armed)
  obtain ⟨-, -, -, held, parts⟩ := ok.record rec
  have unended : r.entry.state.finished = false := congrArg RecordState.finished expected
  unfold Entry.partsOk at parts
  rw [if_neg (by rw [unended]; decide)] at parts
  obtain ⟨full, preview⟩ := parts
  have still (p : Part) : r.entry.part p ≠ .sending := by
    cases p with
    | full => rcases full with full | full <;> rw [full] <;> decide
    | preview =>
      rw [preview]
      decide
  have posts : (modPort n Port.expired (expireRecord n h s)).posts = update s.posts n (s.posts n).expired := by
    rw [modPort_posts (g := Post.expired) fun _ _ _ => rfl, posts_of_front (expireRecord_front n h s)]
  have left : (s.posts n).expired = (s.posts n).left := by
    have apart : (s.posts n).port ≠ .receiving := fun e => nomatch armed.symm.trans e
    have context := fits.context
    rw [if_neg apart] at context
    unfold Post.expired Post.left
    rw [context]
  rw [left] at posts
  refine Leaves.settleAs (s := s) ⟨posts, ?_⟩ ok rfl
  have ledger : (modPort n Port.expired (expireRecord n h s)).ledger = s.ledger.free h r.entry := expireRecord_ledger rec
  rw [ledger, posts, holders_update]
  have own : r.entry.port = n := port
  have vacated : update (holders s.posts) n (s.posts n).left.held = fun m => if m = n then none else holders s.posts m :=
    funext fun m => Function.update_apply _ _ _ _
  rw [vacated]
  refine ok.books.free (ledger_entry_some rec) still (fun m x => ?_) fun k other m x => ?_
  · split_ifs with mine
    · exact fun e => nomatch e
    · exact fun holds => mine (((held m x).1 holds).1.symm.trans own)
  · split_ifs with mine
    · refine iff_of_false (fun e => nomatch e) fun holds => ?_
      rw [mine] at holds
      exact other (Option.some.inj ((holders_some.1 holds).1.symm.trans cur))
    · rfl

theorem Good.takeWindowExpiry (ok : Good s) (n : Unit8) : Good (Machine.takeWindowExpiry n s) := by
  cases run : inReset s with
  | true =>
    unfold Machine.takeWindowExpiry
    rwa [run]
  | false =>
    cases ends : (s.port n).windowEnd with
    | none => rwa [takeWindowExpiry_none (.inl ends)]
    | some e =>
      cases cur : (s.port n).current with
      | none => rwa [takeWindowExpiry_none (.inr cur)]
      | some h =>
        have timed : (s.posts n).timed = true := congrArg Option.isSome ends
        have armed : (s.port n).state = .armed := (ok.units n).timed.1 timed
        have port : (reachTime e s).port n = s.port n := by rw [reachTime_rest]; rfl
        rw [takeWindowExpiry_some run ends cur]
        exact ((reachTime_same e s).good ok).expire ((congrArg Port.state port).trans armed) ((congrArg Port.current port).trans cur)

theorem setLock_same (b : Bool) : Same s (setLock n b s) := ⟨rfl, rfl⟩

theorem Good.takeLockGained (ok : Good s) (n : Unit8) : Good (Machine.takeLockGained n s) := by
  have locked := (setLock_same (n := n) true).good ok
  unfold Machine.takeLockGained
  dsimp only
  split
  · exact locked
  · split
    · rename_i unlocked
      have same : Same (setLock n true s) (modPort n (fun p => { p with lastCounter := none }) (setLock n true s)) :=
        modPort_same fun _ _ _ => by rfl
      refine (same.good locked).settleAs rfl ?_
      rw [same.posts]
      exact ((ok.units n).resting (fun e => nomatch unlocked.symm.trans e) fun e => nomatch unlocked.symm.trans e).1
    · exact locked

theorem Good.loseLock (ok : Good s) (n : Unit8) : Good (Machine.loseLock n s) := by
  have lost : Leaves n s (frameLost n s) := by
    unfold frameLost
    split
    · exact (ok.truncate n .cameraLost).same clearOutstanding_same
    · rename_i vacant
      exact .of_vacant ok (.refl s) (Option.not_isSome_iff_eq_none.1 vacant)
  rw [loseLock_eq]
  refine Good.settle ((setBoth_same _ _).good ?_) n
  refine lost.good ok rfl (modPort_posts (g := fun p => { p with port := .unlocked, current := none }) fun _ _ _ => rfl) rfl ?_
  rw [lost.own]
  exact (ok.units n).letGo (by decide) (by decide) (.inr rfl) fun e => nomatch e

theorem Good.takeLockLost (ok : Good s) (n : Unit8) : Good (Machine.takeLockLost n s) := by
  have unlocked := (setLock_same (n := n) false).good ok
  unfold Machine.takeLockLost
  dsimp only
  split
  · exact unlocked
  · cases (s.port n).state with
    | disabled | unlocked => exact unlocked
    | idle | armed | receiving | draining => exact unlocked.loseLock n

end Sys2Proof.Machine
end

section
/-! PROOFS. Pulls, transfers and sent reports, in the ledger (O59). -/

namespace Sys2Proof.Machine

open Function (update)

/-! ## Lanes and queues (R172, R175) -/

/-- A lane that sends nothing for a record is emptied. -/
theorem LedgerOk.dropLane {L : Ledger} {cur : Held} (ok : LedgerOk L cur) {p : Part} (idle : ∀ k, L.lane p ≠ some (k, false)) :
    LedgerOk { L with lane := fun y => if y = p then none else L.lane y } cur := by
  have lane (y : Part) (k : Handle) : (if y = p then none else L.lane y) = some (k, false) ↔ L.lane y = some (k, false) := by
    split_ifs with own
    · subst own
      exact iff_of_false (fun e => nomatch e) (idle k)
    · rfl
  obtain ⟨blocks, aged, queued, load, heads, preview, fits⟩ := ok
  refine ⟨blocks, aged, queued, load, fun y k sends => heads y k ((lane y k).1 sends), fun k b sends => ?_, fun k => ?_⟩
  · dsimp only at sends
    split_ifs at sends with own
    exact preview k b sends
  · have places : Ledger.places { L with lane := fun y => if y = p then none else L.lane y } cur k = L.places cur k := by
      simp only [Ledger.places, lane]
    rw [places]
    exact fits k

/-- What the ledger shows of FWD: the handles of the queues, and the lanes. -/
def Fwd.shown (f : Fwd) : (Part → List Handle) × (Part → Option (Handle × Bool)) :=
  (fun p => (f.queue p).map (·.handle), fun p => (f.lane p).map fun t => (t.handle, t.abandoning))

theorem shown_setLane (f : Fwd) (p : Part) (t : Option Transfer) : (f.setLane p t).shown =
    (f.shown.1, fun y => if y = p then t.map fun t => (t.handle, t.abandoning) else f.shown.2 y) := by
  refine Prod.ext ?_ ?_ <;> funext y <;> cases p <;> cases y <;> rfl

theorem shown_setQueue (f : Fwd) (p : Part) (q : List ImageEntry) : (f.setQueue p q).shown =
    (fun y => if y = p then q.map (·.handle) else f.shown.1 y, f.shown.2) := by
  refine Prod.ext ?_ ?_ <;> funext y <;> cases p <;> cases y <;> rfl

/-- A function changed nowhere. -/
theorem ite_same {α : Type} (g : Part → α) (p y : Part) : g y = if y = p then g p else g y := by
  split_ifs with own
  · rw [own]
  · rfl

theorem ledger_setFwd (s : State) (f : Fwd) :
    (s.setFwd f).ledger = { s.ledger with queue := f.shown.1, lane := f.shown.2 } := rfl

/-- FWD changed where the ledger shows nothing. -/
theorem setFwd_same {s : State} {f : Fwd} (shown : f.shown = s.fwd.shown) : Same s (s.setFwd f) := by
  refine ⟨?_, rfl⟩
  rw [ledger_setFwd, shown]
  rfl

theorem countFwd_same (f : ForwardCounters → ForwardCounters) (s : State) : Same s (countFwd f s) := ⟨rfl, rfl⟩

section
variable {s : State}

/-- The ledger changed, and no post. -/
theorem Good.relist {t : State} (ok : Good s) (posts : t.posts = s.posts) (books : LedgerOk t.ledger (holders s.posts)) : Good t :=
  ⟨posts ▸ books, fun n => posts ▸ ok.units n⟩

theorem entry_full {r : FrameRecord} {x : FullState} :
    ({ r with fullState := x } : FrameRecord).entry = r.entry.withPart .full x.part :=
  congrArg (Entry.mk r.port r.state (r.fullBlocks ++ r.previewBlocks)) (funext fun y => by cases y <;> rfl)

theorem entry_preview {r : FrameRecord} {x : PreviewState} :
    ({ r with previewState := x } : FrameRecord).entry = r.entry.withPart .preview x.part :=
  congrArg (Entry.mk r.port r.state (r.fullBlocks ++ r.previewBlocks)) (funext fun y => by cases y <;> rfl)

theorem partSending_entry (r : FrameRecord) (p : Part) : (r.partSending p).entry = r.entry.withPart p .sending := by
  cases p with
  | full => exact entry_full
  | preview => exact entry_preview

theorem partQueued_entry (r : FrameRecord) (p : Part) : (r.partQueued p).entry = r.entry.withPart p .queued := by
  cases p with
  | full => exact entry_full
  | preview => exact entry_preview

theorem partSent_entry (r : FrameRecord) (p : Part) : (r.partSent p).entry = r.entry.withPart p .sent := by
  cases p with
  | full => exact entry_full
  | preview => exact entry_preview

/-- A record's part changed, with the queue and the lane of that part. -/
theorem ledger_setPart {h : Handle} {r : FrameRecord} (rec : recordAt s h = some r) {f : FrameRecord → FrameRecord} {w : Fwd} {p : Part}
    {x : PartState} {q : List Handle} {l : Option (Handle × Bool)} (entry : (f r).entry = r.entry.withPart p x)
    (queue : ∀ y, w.shown.1 y = if y = p then q else s.ledger.queue y)
    (lane : ∀ y, w.shown.2 y = if y = p then l else s.ledger.lane y) :
    (modRecord h f (s.setFwd w)).ledger = s.ledger.setPart h r.entry p x q l := by
  rw [ledger_modRecord (recordAt_setFwd rec w), ledger_setFwd, entry, funext queue, funext lane]
  rfl

/-- A record in a queue has ended. -/
theorem Good.queuedEnded (ok : Good s) {p : Part} {h : Handle} {r : FrameRecord} (rec : recordAt s h = some r)
    (waits : (r.entry.part p).waits) : r.entry.state.finished = true := by
  obtain ⟨-, -, -, -, parts⟩ := ok.record rec
  unfold Entry.partsOk at parts
  by_contra unended
  rw [if_neg unended] at parts
  obtain ⟨full, preview⟩ := parts
  cases p with
  | full => rcases full with full | full <;> rw [full] at waits <;> revert waits <;> decide
  | preview =>
    rw [preview] at waits
    revert waits
    decide

/-- A handle in a queue names a record whose part stands there. -/
theorem Good.queuedRecord (ok : Good s) {p : Part} {h : Handle} (mem : h ∈ s.ledger.queue p) :
    ∃ r, recordAt s h = some r ∧ (r.entry.part p).waits := by
  have fits := ok.books.fits h
  rw [ledger_entry] at fits
  cases rec : recordAt s h with
  | none =>
    rw [rec] at fits
    exact absurd mem (fits.2.1 p)
  | some r =>
    rw [rec] at fits
    exact ⟨r, rfl, (fits.2.1 p).1 mem⟩

/-- What a lane sends is the head of its queue. -/
theorem Good.laneRecord (ok : Good s) {p : Part} {h : Handle} (sends : s.ledger.lane p = some (h, false)) :
    h ∈ s.ledger.queue p ∧ ∃ r, recordAt s h = some r ∧ r.entry.part p = .sending := by
  have mem : h ∈ s.ledger.queue p := List.mem_of_mem_head? (ok.books.heads p h sends)
  obtain ⟨r, rec, -⟩ := ok.queuedRecord mem
  obtain ⟨-, -, going, -, -⟩ := ok.record rec
  exact ⟨mem, r, rec, (going p).1 sends⟩

/-! ## Transfers (R173 to R177, R183) -/

/-- A lane takes the head of its queue (R175). -/
theorem LedgerOk.send {L : Ledger} {cur : Held} (ok : LedgerOk L cur) {h : Handle} {e : Entry} (own : L.entry h = some e) {p : Part}
    (ended : e.state.finished = true) (head : (L.queue p).head? = some h) (idle : L.lane p = none) :
    LedgerOk (L.setPart h e p .sending (L.queue p) (some (h, false))) cur := by
  have mem := List.mem_of_mem_head? head
  refine ok.setPart own ended ⟨by decide, fun _ => by decide⟩ (ok.queued p) (iff_of_true mem (.inr rfl)) (fun _ _ => .rfl)
    (fun full => ?_) (iff_of_true rfl rfl) (fun k other => ?_) (fun k same => ?_) fun _ k b same => ?_
  · have load := ok.load
    subst full
    omega
  · rw [idle]
    simp [Ne.symm other]
  · obtain ⟨rfl, -⟩ := Prod.mk.inj (Option.some.inj same)
    exact head
  · exact (Prod.mk.inj (Option.some.inj same)).2.symm

/-- A part that goes out of its queue, and of its lane (R177, R180). -/
theorem LedgerOk.unqueue {L : Ledger} {cur : Held} (ok : LedgerOk L cur) {h : Handle} {e : Entry} (own : L.entry h = some e) {p : Part}
    (ended : e.state.finished = true) {x : PartState} (idle : ¬x.waits) (settled : x ≠ .await ∧ (p = .preview → x ≠ .none))
    {l : Option (Handle × Bool)} (stopped : l ≠ some (h, false))
    (others : ∀ k, k ≠ h → (l = some (k, false) ↔ L.lane p = some (k, false))) (preview : p = .preview → l = none) :
    LedgerOk (L.setPart h e p x ((L.queue p).filter fun a => a != h) l) cur := by
  refine ok.setPart own ended settled ((ok.queued p).filter _) (iff_of_false (by simp) idle) (fun k other => by simp [other])
    (fun full => ?_) (iff_of_false stopped fun sending => idle (.inr sending)) others (fun k sends => ?_) fun same k b sends => ?_
  · have load := ok.load
    have fewer := List.length_filter_le (fun a => a != h) (L.queue .full)
    subst full
    omega
  · have other : k ≠ h := fun same => stopped (same ▸ sends)
    exact head_filter_ne (ok.heads p k ((others k other).1 sends)) other
  · rw [preview same] at sends
    exact nomatch sends

/-- A part cut off in its transfer waits again (R183). -/
theorem LedgerOk.requeue {L : Ledger} {cur : Held} (ok : LedgerOk L cur) {h : Handle} {e : Entry} (own : L.entry h = some e) {p : Part}
    (ended : e.state.finished = true) (mem : h ∈ L.queue p) (sends : L.lane p = some (h, false)) :
    LedgerOk (L.setPart h e p .queued (L.queue p) none) cur := by
  refine ok.setPart own ended ⟨by decide, fun _ => by decide⟩ (ok.queued p) (iff_of_true mem (.inl rfl)) (fun _ _ => .rfl)
    (fun full => ?_) (iff_of_false (fun e => nomatch e) (by decide)) (fun k other => ?_) (fun k same => nomatch same)
    fun _ k b same => nomatch same
  · have load := ok.load
    subst full
    omega
  · rw [sends]
    simp [Ne.symm other]

/-- A part of a record that has ended joins the tail of the pull queue (R178, R182). -/
theorem LedgerOk.join {L : Ledger} {cur : Held} (ok : LedgerOk L cur) {h : Handle} {e : Entry} (own : L.entry h = some e)
    (ended : e.state.finished = true) (out : ¬(e.part .full).waits) (room : L.load < 64) :
    LedgerOk (L.setPart h e .full .queued (L.queue .full ++ [h]) (L.lane .full)) cur := by
  obtain ⟨-, queued, going, -, -⟩ := ok.fits_own own
  have absent : h ∉ L.queue .full := fun mem => out ((queued .full).1 mem)
  have idle : L.lane .full ≠ some (h, false) := fun sends => out (.inr ((going .full).1 sends))
  refine ok.setPart own ended ⟨by decide, fun e => nomatch e⟩ (nodup_joined (ok.queued .full) absent true)
    (iff_of_true (by simp) (.inl rfl)) (fun k other => by simp [other]) (fun _ => ?_) (iff_of_false idle (by decide))
    (fun _ _ => .rfl) (fun k sends => head_joined (ok.heads .full k sends)) fun e => nomatch e
  rw [List.length_append, List.length_singleton]
  omega

theorem Good.beginTransfer (ok : Good s) {p : Part} (free : s.fwd.lane p = none) : Good (Machine.beginTransfer p s).2 := by
  unfold Machine.beginTransfer
  split
  · exact ok
  · rename_i e head
    split
    · exact ok
    · rename_i r rec
      have idle : s.ledger.lane p = none := by simp [State.ledger, free]
      have front : (s.ledger.queue p).head? = some e.handle := by rw [ledger_head, head, Option.map_some]
      obtain ⟨r', rec', waits⟩ := ok.queuedRecord (List.mem_of_mem_head? front)
      obtain rfl : r = r' := Option.some.inj (rec.symm.trans rec')
      have sent := ok.books.send (ledger_entry_some rec) (ok.queuedEnded rec waits) front idle
      refine ok.relist (posts_of_front (modRecord_front _ _ _)) ((ledger_setPart (f := fun r => r.partSending p) rec
        (partSending_entry r p) (fun y => ?_) fun y => ?_).symm ▸ sent)
      · rw [shown_setLane]
        exact ite_same s.ledger.queue p y
      · rw [shown_setLane]
        rfl

/-- What an ask hands over leaves the ledger kept, and a segment is of the lane it leaves (R173, R176). -/
def HandsOver (x : Option Transmission × State) : Prop :=
  Good x.2 ∧ ∀ g, x.1 = some (.image g) → ∃ b, x.2.ledger.lane g.part = some (g.handle, b) ∧ (g.abandoned = true → b = true)

theorem HandsOver.other {o : Option Transmission} {t : State} (ok : Good t) (other : ∀ g, o ≠ some (.image g)) : HandsOver (o, t) :=
  ⟨ok, fun g same => absurd same (other g)⟩

theorem beginTransfer_other (p : Part) (s : State) (g : Segment) : (beginTransfer p s).1 ≠ some (.image g) := by
  unfold beginTransfer
  split
  · exact fun same => nomatch same
  · split <;> exact fun same => nomatch same

theorem nextSegment_lane (p : Part) (t : Transfer) (s : State) : (nextSegment p t s).part = p ∧
    (nextSegment p t s).handle = t.handle ∧ (nextSegment p t s).abandoned = t.abandoning := by
  unfold nextSegment
  cases t.abandoning <;> exact ⟨rfl, rfl, rfl⟩

theorem Good.handSegment (ok : Good s) {p : Part} {t : Transfer} (lane : s.fwd.lane p = some t) : HandsOver (handSegment p t s) := by
  have sends : s.fwd.shown.2 p = some (t.handle, t.abandoning) := by simp [Fwd.shown, lane]
  have shown : (s.fwd.setLane p (some { t with next := t.next + 1, closed := t.abandoning })).shown = s.fwd.shown := by
    rw [shown_setLane]
    exact Prod.ext rfl (funext fun y => ((ite_same s.fwd.shown.2 p y).trans (by rw [sends]; rfl)).symm)
  have same : Same s (Machine.handSegment p t s).2 := setFwd_same shown
  refine ⟨same.good ok, fun g handed => ?_⟩
  obtain rfl : nextSegment p t s = g := Transmission.image.inj (Option.some.inj handed)
  obtain ⟨part, handle, abandoned⟩ := nextSegment_lane p t s
  rw [same.ledger, part, handle, abandoned]
  exact ⟨_, sends, id⟩

theorem Good.imageStep (ok : Good s) : HandsOver (imageStep s) := by
  unfold Machine.imageStep
  cases chooseLane s.fwd with
  | none => exact .other ok fun _ same => nomatch same
  | some p =>
    dsimp only
    cases lane : s.fwd.lane p with
    | none => exact .other (ok.beginTransfer lane) (beginTransfer_other p s)
    | some t => exact ok.handSegment lane

theorem Good.arbiter (ok : Good s) : HandsOver (arbiter s) := by
  unfold Machine.arbiter
  split
  · rename_i e rest _
    unfold controlStep
    split
    · exact .other ok fun _ same => nomatch same
    · exact .other (Same.good (s := s) ⟨rfl, rfl⟩ ok) fun _ same => nomatch same
    · exact .other (Same.good (s := s) ⟨rfl, rfl⟩ ok) fun _ same => nomatch same
  · split
    · exact ok.imageStep
    · exact .other ok fun _ same => nomatch same

/-- FWD's lane is emptied where it sends nothing for a record (R180). -/
theorem Good.dropLane (ok : Good s) {p : Part} (idle : ∀ k, s.ledger.lane p ≠ some (k, false)) :
    Good (s.setFwd (s.fwd.setLane p none)) := by
  refine ok.relist rfl ?_
  rw [ledger_setFwd, shown_setLane]
  exact ok.books.dropLane idle

/-- A part whose last segment has gone out is SENT (R177). -/
theorem Good.transferDone (ok : Good s) {p : Part} {h : Handle} (sends : s.ledger.lane p = some (h, false)) {w : Fwd}
    (shown : w.shown = ((s.fwd.setLane p none).setQueue p ((s.fwd.queue p).filter fun e => e.handle != h)).shown) :
    Good (modRecord h (fun r => r.partSent p) (s.setFwd w)) := by
  obtain ⟨-, r, rec, part⟩ := ok.laneRecord sends
  have alone (k : Handle) (other : k ≠ h) : none = some (k, false) ↔ s.ledger.lane p = some (k, false) :=
    iff_of_false (fun e => nomatch e) fun same => other (Prod.mk.inj (Option.some.inj (same.symm.trans sends))).1
  have sent := ok.books.unqueue (ledger_entry_some rec) (p := p) (x := .sent) (l := none) (ok.queuedEnded rec (.inr part))
    (by decide) ⟨by decide, fun _ => by decide⟩ (fun same => nomatch same) alone fun _ => rfl
  refine ok.relist (posts_of_front (modRecord_front _ _ _)) ((ledger_setPart (f := fun r => r.partSent p) rec
    (partSent_entry r p) (fun y => ?_) fun y => ?_).symm ▸ sent)
  · rw [shown, shown_setQueue, shown_setLane]
    exact if_congr Iff.rfl (map_handle_filter _ h) rfl
  · rw [shown, shown_setQueue, shown_setLane]
    rfl

/-- The counters of FWD, before and after a lane is emptied, show nothing. -/
theorem shown_counted (f : Fwd) (p : Part) (c d : ForwardCounters) :
    ({ ({ f with counters := c } : Fwd).setLane p none with counters := d } : Fwd).shown = (f.setLane p none).shown := by
  cases p <;> rfl

/-- The lane emptied and the queue changed, with the counters. -/
theorem shown_counted_queue (f : Fwd) (p : Part) (c d : ForwardCounters) (q : List ImageEntry → List ImageEntry) :
    (let w : Fwd := { ({ f with counters := c } : Fwd).setLane p none with counters := d }
    w.setQueue p (q (w.queue p))).shown = ((f.setLane p none).setQueue p (q (f.queue p))).shown := by
  cases p <;> rfl

/-- FWD takes the report of the segment that went out (R177). -/
theorem Good.segmentReport (ok : Good s) {g : Segment} {b : Bool} (lane : s.ledger.lane g.part = some (g.handle, b))
    (abandoned : g.abandoned = true → b = true) : Good (Machine.segmentReport g s) := by
  have drop {w : Fwd} (shown : w.shown = (s.fwd.setLane g.part none).shown) (gone : b = true) : Good (s.setFwd w) := by
    have dropped : Good (s.setFwd (s.fwd.setLane g.part none)) := by
      refine ok.dropLane fun k sends => ?_
      rw [lane, gone] at sends
      exact nomatch sends
    exact Same.good (setFwd_same (s := s.setFwd (s.fwd.setLane g.part none)) shown) dropped
  have state : abandoningLane s.fwd g.part = b := by
    obtain ⟨t, own, -, abandoning⟩ := lane_going.1 lane
    simp [abandoningLane, own, abandoning]
  unfold Machine.segmentReport
  rw [state]
  split_ifs with out last gone
  · exact drop (shown_counted _ _ _ _) (abandoned out)
  · exact drop (shown_counted _ _ _ _) gone
  · rw [Bool.not_eq_true] at gone
    subst gone
    exact ok.transferDone lane (shown_counted_queue _ _ _ _ _)
  · exact Same.good (s := s) ⟨rfl, rfl⟩ ok

theorem map_restart (q : List ImageEntry) (h : Handle) :
    (q.map fun e => if e.handle = h then { e with restart := true } else e).map (·.handle) = q.map (·.handle) := by
  rw [List.map_map]
  refine List.map_congr_left fun e _ => ?_
  dsimp only [Function.comp]
  split <;> rfl

/-- A part cut off in its transfer waits again (R183). -/
theorem Good.transferBack (ok : Good s) {p : Part} {h : Handle} (sends : s.ledger.lane p = some (h, false)) {w : Fwd}
    (queue : w.shown.1 = s.fwd.shown.1) (lane : w.shown.2 = (s.fwd.setLane p none).shown.2) :
    Good (modRecord h (fun r => r.partQueued p) (s.setFwd w)) := by
  obtain ⟨mem, r, rec, part⟩ := ok.laneRecord sends
  have back := ok.books.requeue (ledger_entry_some rec) (ok.queuedEnded rec (.inr part)) mem sends
  refine ok.relist (posts_of_front (modRecord_front _ _ _)) ((ledger_setPart (f := fun r => r.partQueued p) rec
    (partQueued_entry r p) (fun y => ?_) fun y => ?_).symm ▸ back)
  · rw [queue]
    exact ite_same s.ledger.queue p y
  · rw [lane, shown_setLane]
    rfl

/-- A transfer that the leaving of UP returns or ends (R183). -/
theorem Good.returnTransfer (ok : Good s) (p : Part) : Good (Machine.returnTransfer p s) := by
  unfold Machine.returnTransfer
  split
  · exact ok
  · rename_i t lane
    have own : s.ledger.lane p = some (t.handle, t.abandoning) := by simp [State.ledger, lane]
    dsimp only
    split
    · rename_i gone
      have dropped : Good (s.setFwd (s.fwd.setLane p none)) := by
        refine ok.dropLane fun k sends => ?_
        rw [own, gone] at sends
        exact nomatch sends
      exact (countFwd_same _ _).good dropped
    · rename_i going
      rw [Bool.not_eq_true] at going
      rw [going] at own
      refine (countFwd_same _ _).good (ok.transferBack own (w := (s.fwd.setLane p none).setQueue p
        (((s.fwd.setLane p none).queue p).map fun e : ImageEntry =>
          if e.handle = t.handle then { e with restart := true } else e)) ?_ ?_)
      · rw [shown_setQueue, map_restart, shown_setLane]
        have same : ((s.fwd.setLane p none).queue p).map (·.handle) = s.fwd.shown.1 p := by cases p <;> rfl
        rw [same]
        exact funext fun y => (ite_same s.fwd.shown.1 p y).symm
      · rw [shown_setQueue]

/-- FWD's share of the leaving of UP (R183). -/
theorem Good.forwardLoss (ok : Good s) : Good (Machine.forwardLoss s) := by
  have emptied : Good (modFwd (fun f => { f with
      credit := 0, control := [], reserved := false
      counters := { f.counters with creditDiscarded := f.counters.creditDiscarded + BitVec.ofNat 32 f.credit } }) s) :=
    Same.good (s := s) ⟨rfl, rfl⟩ ok
  exact Same.good (s := Machine.returnTransfer .full (Machine.returnTransfer .preview _)) ⟨rfl, rfl⟩
    ((emptied.returnTransfer .preview).returnTransfer .full)

/-! ## Pulls (R178 to R180, R182) -/

theorem Good.joinPull (ok : Good s) {h : Handle} {r : FrameRecord} (rec : recordAt s h = some r) (ended : r.state.finished = true)
    (out : r.fullState = .none ∨ r.fullState = .sent) (room : pullLoad s < 64) : Good (Machine.joinPull h s) := by
  have waits : ¬(r.entry.part .full).waits := fun waits => by
    rcases r.fullState.part_eq.2.2.2.1 waits with full | full <;> rw [full] at out <;> simp at out
  have joined := ok.books.join (ledger_entry_some rec) ended waits ((ledger_load s).trans_lt room)
  refine ok.relist (posts_of_front (modRecord_front _ _ _)) ((ledger_setPart (f := fun r => { r with fullState := .queued }) rec
    entry_full (fun y => ?_) fun y => ?_).symm ▸ joined)
  · cases y with
    | full => exact List.map_append
    | preview => rfl
  · cases y <;> rfl

theorem Good.applyAutoFull (ok : Good s) (atEnd : Bool) (h : Handle) : Good (Machine.applyAutoFull atEnd h s) := by
  unfold Machine.applyAutoFull
  split
  · rename_i due
    split
    · rename_i room
      unfold Machine.autoDue at due
      split at due
      · exact nomatch due
      · rename_i r rec
        simp only [Bool.and_eq_true, decide_eq_true_eq, and_assoc] at due
        obtain ⟨ended, none, -⟩ := due
        exact ok.joinPull rec ended (.inl none) room
    · exact (setOffice_same _ _).good (Same.good (s := s) ⟨rfl, rfl⟩ ok)
  · exact ok

/-- A pull asked for, or given up, before the end of its frame (R178, R180). -/
theorem Good.ask (ok : Good s) {h : Handle} {r : FrameRecord} (rec : recordAt s h = some r) (unended : r.state.finished = false)
    {x : FullState} (asked : x = .none ∨ x = .await) (room : x = .await → pullLoad s < 64) :
    Good (modRecord h (fun r => { r with fullState := x }) s) := by
  have entry : ({ r with fullState := x } : FrameRecord).entry = r.entry.withPart .full x.part := entry_full
  refine ok.relist (posts_of_front (modRecord_front _ _ _)) ?_
  rw [ledger_modRecord rec, entry]
  exact ok.books.ask (ledger_entry_some rec) unended (asked.imp x.part_eq.2.1.2 x.part_eq.1.2) fun await =>
    (ledger_load s).trans_lt (room (x.part_eq.1.1 await))

/-- A queued pull given up (R180). -/
theorem Good.cancelQueued (ok : Good s) {h : Handle} {r : FrameRecord} (rec : recordAt s h = some r) (queued : r.fullState = .queued) :
    Good (modRecord h (fun r => { r with fullState := .none })
      (modFwd (fun f => { f with pull := f.pull.filter fun e => e.handle != h }) s)) := by
  have part : r.entry.part .full = .queued := congrArg FullState.part queued
  obtain ⟨-, -, going, -, -⟩ := ok.record rec
  have idle : s.ledger.lane .full ≠ some (h, false) := fun sends => by
    have := (going .full).1 sends
    rw [part] at this
    exact nomatch this
  have out := ok.books.unqueue (ledger_entry_some rec) (p := .full) (x := .none) (l := s.ledger.lane .full)
    (ok.queuedEnded rec (.inl part)) (by decide) ⟨by decide, fun e => nomatch e⟩ idle (fun _ _ => .rfl) fun e => nomatch e
  refine ok.relist (posts_of_front (modRecord_front _ _ _)) ((ledger_setPart (f := fun r => { r with fullState := .none }) rec
    entry_full (fun y => ?_) fun y => ?_).symm ▸ out)
  · cases y with
    | full => exact map_handle_filter _ h
    | preview => rfl
  · cases y <;> rfl

/-- A pull given up while its lane sends it (R180). -/
theorem Good.abandonPull (ok : Good s) {h : Handle} {r : FrameRecord} (rec : recordAt s h = some r) (sending : r.fullState = .sending) :
    Good (Machine.abandonPull h s) ∧ ∀ p k b, s.ledger.lane p = some (k, b) →
      ∃ c, (Machine.abandonPull h s).ledger.lane p = some (k, c) ∧ (b = true → c = true) := by
  have part : r.entry.part .full = .sending := congrArg FullState.part sending
  obtain ⟨-, -, going, -, -⟩ := ok.record rec
  have sends := (going .full).2 part
  have alone (k : Handle) (other : k ≠ h) : some (h, true) = some (k, false) ↔ s.ledger.lane .full = some (k, false) := by
    rw [sends]
    simp [Ne.symm other]
  have out := ok.books.unqueue (ledger_entry_some rec) (p := .full) (x := .none) (l := some (h, true))
    (ok.queuedEnded rec (.inr part)) (by decide) ⟨by decide, fun e => nomatch e⟩ (by simp) alone fun e => nomatch e
  have ledger : (Machine.abandonPull h s).ledger = s.ledger.setPart h r.entry .full .none
      ((s.ledger.queue .full).filter fun a => a != h) (some (h, true)) := by
    refine ledger_setPart (f := fun r => { r with fullState := .none }) rec entry_full (fun y => ?_) fun y => ?_
    · cases y with
      | full => exact map_handle_filter _ h
      | preview => rfl
    · cases y with
      | full =>
        obtain ⟨t, lane, rfl, -⟩ := lane_going.1 sends
        exact congrArg (Option.map fun t : Transfer => (t.handle, t.abandoning))
          (congrArg (Option.map fun t : Transfer => { t with abandoning := true }) lane)
      | preview => rfl
  refine ⟨ok.relist (posts_of_front (modRecord_front _ _ _)) (ledger ▸ out), fun p k b lane => ?_⟩
  rw [ledger]
  dsimp only [Ledger.setPart]
  split_ifs with full
  · rw [full, sends] at lane
    obtain ⟨rfl, -⟩ := Prod.mk.inj (Option.some.inj lane)
    exact ⟨true, rfl, fun _ => rfl⟩
  · exact ⟨b, lane, id⟩

end

end Sys2Proof.Machine
end

section
/-! PROOFS. Notices, items and the edges of ITEM: they keep the ledger and the posts, and touch neither the lanes nor what is
going out (O59). -/

namespace Sys2Proof.Machine

/-- What is going out, and the lanes. -/
def State.sends (s : State) := (s.lnk.tx, s.fwd.fullLane, s.fwd.previewLane)

/-- From `s` to `t` the ledger and the posts are kept, and of the transmitter and the lanes nothing changes. -/
structure Safe (s t : State) : Prop where
  good : Good s → Good t
  sends : t.sends = s.sends

theorem Safe.refl (s : State) : Safe s s := ⟨id, rfl⟩

theorem Safe.trans {a b c : State} (h : Safe a b) (k : Safe b c) : Safe a c := ⟨fun ok => k.good (h.good ok), k.sends.trans h.sends⟩

theorem Safe.of_same {s t : State} (same : Same s t) (sends : t.sends = s.sends) : Safe s t := ⟨same.good, sends⟩

/-- Positions, captures, items, views, pins and clocks changed. -/
theorem Safe.plain {s t : State} (ledger : t.ledger = s.ledger) (posts : t.posts = s.posts) (sends : t.sends = s.sends) : Safe s t :=
  .of_same ⟨ledger, posts⟩ sends

theorem Calm.sends {s t : State} (calm : Calm s t) : t.sends = s.sends := by
  have still := calm.still
  simp only [State.still, Prod.mk.injEq] at still
  obtain ⟨-, -, -, -, -, -, lnk, -, full, preview, -⟩ := still
  unfold State.sends
  rw [lnk, full, preview]

theorem Safe.of_calm {s t : State} (good : Good s → Good t) (calm : Calm s t) : Safe s t := ⟨good, calm.sends⟩

theorem Safe.ite {c : Prop} [Decidable c] {s x y : State} (hx : Safe s x) (hy : Safe s y) : Safe s (if c then x else y) := by
  split
  · exact hx
  · exact hy

theorem Safe.forEachFree {α : Type} {l : List α} {f : α → State → State} (h : ∀ x ∈ l, ∀ s, Safe s (f x s)) (s : State) :
    Safe s (Machine.forEachFree l f s) := forEachFree_rel Safe.refl Safe.trans (fun _ _ => .plain rfl rfl rfl) h s

theorem Safe.foldl {α : Type} {f : State → α → State} (l : List α) (h : ∀ x ∈ l, ∀ s, Safe s (f s x)) (s : State) :
    Safe s (l.foldl f s) := foldl_rel Safe.refl Safe.trans l h s

/-! ## Notices -/

theorem Safe.setLine (n : Notice) (s : State) : Safe s (Machine.setLine n s) := .plain rfl rfl rfl

theorem sends_of_imagery {s t : State} (imagery : t.imagery = s.imagery) (lnk : t.lnk = s.lnk) : t.sends = s.sends := by
  simp only [State.imagery, Prod.mk.injEq] at imagery
  obtain ⟨-, -, -, full, preview, -⟩ := imagery
  unfold State.sends
  rw [lnk, full, preview]

theorem Safe.setOffice (n : Notice) (s : State) : Safe s (Machine.setOffice n s) :=
  .of_same (setOffice_same n s) (sends_of_imagery (setOffice_imagery n s) (by rw [setOffice_rest]))

theorem Safe.setBoth (n : Notice) (s : State) : Safe s (Machine.setBoth n s) := (Safe.setLine n s).trans (.setOffice n _)

/-! ## Blocks that O59 does not speak of -/

section
variable (s : State)

theorem Safe.setPosu (p : Posu) : Safe s (s.setPosu p) := .plain rfl rfl rfl
theorem Safe.setCapu (c : Capu) : Safe s (s.setCapu c) := .plain rfl rfl rfl
theorem Safe.setItab (t : Itab) : Safe s (s.setItab t) := .plain rfl rfl rfl
theorem Safe.setRnu (r : Rnu) : Safe s (s.setRnu r) := .plain rfl rfl rfl
theorem Safe.modItem (n : Nat) (f : Item → Item) : Safe s (Machine.modItem n f s) := .plain rfl rfl rfl
theorem Safe.removeItem (n : Nat) : Safe s (Machine.removeItem n s) := .plain rfl rfl rfl
theorem Safe.setEject (e : EjectTimer) : Safe s (s.setEject e) := .plain rfl rfl rfl
theorem Safe.ejectRequest : Safe s (Machine.ejectRequest s) := .plain rfl rfl rfl

end

/-! ## Messages and items -/

theorem Safe.queueMessage (type : Byte) (b : List Byte) (s : State) : Safe s (Machine.queueMessage type b s) :=
  .of_calm (queueMessage_same type b s).good (queueMessage_calm type b s)

theorem Safe.completeIfSettled (n : Nat) (s : State) : Safe s (Machine.completeIfSettled n s) :=
  .of_calm (completeIfSettled_same n s).good (completeIfSettled_calm n s)

theorem Safe.leaveQueues (item : Nat) (s : State) : Safe s (Machine.leaveQueues item s) :=
  .of_calm (fun ok => ok.leaveQueues item) (leaveQueues_calm item s)

theorem takeCopy_entry (item : Nat) (c : VerdictCopy) (src : VerdictSource) (hold : Bool) (r : FrameRecord) :
    (r.takeCopy item c src hold).entry = r.entry := by
  unfold FrameRecord.takeCopy
  split <;> rfl

theorem Safe.writeCopies (item : Nat) (c : VerdictCopy) (src : VerdictSource) (hold : Bool) (s : State) :
    Safe s (Machine.writeCopies item c src hold s) := by
  refine .plain ?_ rfl rfl
  have slots : (Machine.writeCopies item c src hold s).readSlots FrameRecord.entry = s.readSlots FrameRecord.entry := by
    unfold State.readSlots Machine.writeCopies
    rw [State.setFsto_fsto, Vector.map_map]
    refine congrArg (fun f => s.fsto.slots.map f) (funext fun sl => ?_)
    dsimp only [Function.comp]
    rw [Option.map_map]
    exact congrArg (fun f => (sl.gen, sl.record.map f)) (funext fun r => takeCopy_entry item c src hold r)
  unfold State.ledger
  rw [slots]
  rfl

theorem Safe.applyPolicies (handles : List Handle) (s : State) : Safe s (Machine.applyPolicies handles s) :=
  .forEachFree (fun h _ s => .of_calm (fun ok => ok.applyAutoFull false h) (applyAutoFull_calm false h s)) s

theorem Safe.retireItem (it : Item) (s : State) : Safe s (Machine.retireItem it s) := by
  unfold Machine.retireItem
  generalize finalVerdict s.itab.geometry it = verdict
  obtain ⟨v, src⟩ := verdict
  dsimp -zeta only
  extract_lets s2 s3 s4 named s5 s6 s7 s8
  have h3 : Safe s s3 := (Safe.leaveQueues it.number s).trans (.removeItem _ _)
  clear_value s3
  have h4 : Safe s3 s4 := .ite (.ejectRequest s3) (.refl s3)
  clear_value s4
  have h5 : Safe s4 s5 := .writeCopies _ _ _ _ s4
  clear_value s5
  have h6 : Safe s5 s6 := .applyPolicies named s5
  clear_value s6
  have h7 : Safe s6 s7 := .queueMessage _ _ s6
  clear_value s7
  have h8 : Safe s7 s8 := .ite (.setOffice _ s7) (.refl s7)
  clear_value s8
  exact ((h3.trans h4).trans (h5.trans (h6.trans (h7.trans h8)))).trans (.setItab _ _)

theorem Safe.withdraw (it : Item) (s : State) : Safe s (Machine.withdraw it s) := by
  unfold Machine.withdraw
  extract_lets s1 s2 s3
  have h1 : Safe s s1 := (Safe.leaveQueues it.number s).trans (.removeItem _ _)
  clear_value s1
  have h2 : Safe s1 s2 := .writeCopies _ _ _ _ s1
  clear_value s2
  have h3 : Safe s2 s3 := .queueMessage _ _ s2
  clear_value s3
  exact (h1.trans (h2.trans h3)).trans (.setItab _ _)

theorem Safe.scheduleClose (n : Unit8) (item : Nat) (pos : Pos) (s : State) : Safe s (Machine.scheduleClose n item pos s) :=
  .of_calm (fun ok => ok.scheduleClose n item pos) (scheduleClose_calm n item pos s)

theorem Safe.endItem (n : Nat) (e : Pos) (long : Bool) (s : State) : Safe s (Machine.endItem n e long s) := by
  have ask (u : State) (ch : Unit8) : Safe u (askClose n e u ch) := by
    unfold askClose
    split
    · exact .refl u
    · exact .ite (.scheduleClose _ _ _ u) (.refl u)
  unfold Machine.endItem
  exact (Safe.modItem s n _).trans
    ((Safe.foldl units (fun ch _ u => ask u ch) _).trans (.completeIfSettled n _))

/-- The entries of a new item, each of its port's kind, on channels that run (R35, R41). -/
theorem Safe.enterChannel (it : Item) (s : State) (ch : Unit8) : Safe s (Machine.enterChannel it s ch) := by
  cases part : takesPart (s.chan ch) with
  | false =>
    rw [enterChannel_out part]
    exact .refl s
  | true =>
    have pending : Safe s (pendingAt it.number ch s) := .modItem s _ _
    have running : (s.chan ch).state = .running := by
      unfold takesPart at part
      rw [Bool.and_eq_true, decide_eq_true_eq, decide_eq_true_eq] at part
      exact part.2
    have busy : ((pendingAt it.number ch s).posts ch).chan ≠ .idle := fun idle => nomatch running.symm.trans idle
    have shot {kind : ShotKind} (own : kind = .areaShot ↔ (s.port ch).kind = .area) (pos : Pos) :
        Safe s (scheduleShot ch it.number pos kind (pendingAt it.number ch s)) :=
      pending.trans (.of_calm (fun ok => ok.scheduleShot busy own it.number pos) (scheduleShot_calm _ _ _ _ _))
    rw [enterChannel_in part]
    split
    · rename_i area
      exact shot (iff_of_true rfl area) _
    · rename_i scan
      have opens := shot (kind := .windowOpen) (iff_of_false (fun e => nomatch e) fun area => nomatch area.symm.trans scan)
        (posPlus it.start (s.chan ch).offset)
      split
      · exact opens
      · exact opens.trans (.scheduleClose _ _ _ _)

theorem Safe.appendItem (it : Item) (s : State) : Safe s (Machine.appendItem it s) := by
  unfold Machine.appendItem
  exact (Safe.setItab s _).trans (.foldl units (fun ch _ u => .enterChannel it u ch) _)

theorem Safe.createFromEdge (p : Pos) (s : State) : Safe s (Machine.createFromEdge p s) := by
  unfold Machine.createFromEdge
  extract_lets it s1
  have joined : Safe s s1 := .appendItem it s
  clear_value s1
  split
  · exact joined
  · exact .ite (joined.trans (.retireItem _ s1)) (.ite (joined.trans (.endItem _ _ _ s1)) joined)

theorem Safe.trailingEdge (q : Pos) (s : State) : Safe s (Machine.trailingEdge q s) := by
  unfold Machine.trailingEdge
  split
  · exact .setItab s _
  · split
    · exact .refl s
    · exact .ite (.endItem _ _ _ s) (.refl s)

theorem Safe.offerBlind (p : Pos) (s : State) : Safe s (Machine.offerBlind p s) := by
  unfold Machine.offerBlind
  split
  · exact .refl s
  · split
    · exact .setItab s _
    · exact (Safe.setItab s _).trans (.setBoth _ _)

theorem Safe.leadingEdge (p : Pos) (s : State) : Safe s (Machine.leadingEdge p s) := by
  unfold Machine.leadingEdge
  dsimp only
  split
  · exact .setItab s _
  · split
    · exact (Safe.setItab s _).trans ((Safe.setBoth _ _).trans (.offerBlind _ _))
    · exact (Safe.setItab s _).trans (.createFromEdge p _)

end Sys2Proof.Machine
end

section
/-! PROOFS. Edges of the pins, count events, sources, pulses and the words of the cameras: they keep the ledger and the posts,
and touch neither the lanes nor what is going out (O59). -/

namespace Sys2Proof.Machine

/-! ## Channels and pins -/

section
variable (s : State)

theorem Safe.setPins (p : Pins) : Safe s { s with pins := p } := .plain rfl rfl rfl

theorem Safe.modInput (i : CaptureInput) (f : InputUnit → InputUnit) : Safe s (Machine.modInput i f s) := .setCapu s _

theorem Safe.modChan {n : Unit8} {f : Channel → Channel} (same : ∀ c p k, postOf (f c) p k = postOf c p k) :
    Safe s (Machine.modChan n f s) := .of_same (modChan_same same) rfl

theorem Safe.untilEdge (input : AuxInput) (pos : Pos) (stamp : Stamp) : Safe s (Machine.untilEdge input pos stamp s) :=
  .of_calm (fun ok => ok.untilEdge input pos stamp) (untilEdge_calm input pos stamp s)

theorem Safe.stopHalt : Safe s (Machine.stopHalt s) := .of_calm Good.stopHalt (stopHalt_calm s)

theorem Safe.elapse (k : Nat) : Safe s (Machine.elapse k s) := by
  unfold Machine.elapse
  split <;> exact .plain rfl rfl rfl

theorem Safe.reachTime (t : Stamp) : Safe s (Machine.reachTime t s) := by
  unfold Machine.reachTime
  split
  · exact .refl s
  · exact .elapse s _

theorem Safe.endSwitch (o : SwitchOutcome) : Safe s (Machine.endSwitch o s) := by
  rw [endSwitch_rest]
  exact .plain rfl rfl rfl

/-! ## Edges of the capture pins (R23, R24) -/

theorem Safe.offerCapture (r : CaptureRecord) : Safe s (Machine.offerCapture r s) := by
  unfold Machine.offerCapture
  split
  · exact .setCapu s _
  · exact (Safe.setCapu s _).trans (.setLine _ _)

theorem Safe.auxEdge (a : AuxInput) (role : Role) (e : Edge) (pos : Pos) (stamp : Stamp) :
    Safe s (Machine.auxEdge a role e pos stamp s) := by
  cases role with
  | capture => exact .offerCapture s _
  | untilEdge => exact .untilEdge s _ _ _
  | both => exact (Safe.offerCapture s _).trans (.untilEdge _ _ _ _)

theorem Safe.stopAsserted : Safe s (Machine.stopAsserted s) :=
  (Safe.setPosu s _).trans ((Safe.endSwitch _ _).trans ((Safe.setBoth _ _).trans (.stopHalt _)))

theorem Safe.classify (i : CaptureInput) (l : Level) (pos : Pos) (stamp : Stamp) : Safe s (Machine.classify i l pos stamp s) := by
  unfold Machine.classify
  refine .ite ?_ (.refl s)
  cases i with
  | item => exact .ite (.leadingEdge pos s) (.trailingEdge pos s)
  | stop => exact .ite (.stopAsserted s) (.refl s)
  | aux1 => exact .auxEdge s _ _ _ _ _
  | aux2 => exact .auxEdge s _ _ _ _ _

theorem Safe.acceptEdge (i : CaptureInput) (l : Level) (pos : Pos) (stamp : Stamp) : Safe s (Machine.acceptEdge i l pos stamp s) :=
  (Safe.modInput s i _).trans (.classify _ i l pos stamp)

theorem Safe.takePinChange (i : CaptureInput) (l : Level) : Safe s (Machine.takePinChange i l s) := by
  unfold Machine.takePinChange
  extract_lets s1 u
  have level : Safe s s1 := .setPins s _
  exact .ite level (.ite (level.trans (.modInput s1 i _)) (.ite level (.ite (level.trans (.acceptEdge s1 i l _ _))
    (level.trans (.modInput s1 i _)))))

theorem Safe.takeFilterExpiry (i : CaptureInput) : Safe s (Machine.takeFilterExpiry i s) := by
  unfold Machine.takeFilterExpiry
  split
  · exact .refl s
  · exact .ite (.refl s) ((Safe.reachTime s _).trans (.acceptEdge _ _ _ _ _))

/-! ## Count events (R5) -/

theorem Safe.reachForcedEnd (p : Pos) : Safe s (Machine.reachForcedEnd p s) := by
  unfold Machine.reachForcedEnd
  split
  · exact .refl s
  · exact .ite (.endItem _ _ _ s) (.refl s)

theorem Safe.blindRequests (k : Nat) (s : State) : Safe s (Machine.blindRequests k s) := by
  induction k generalizing s with
  | zero => exact .refl s
  | succ k ih => exact (Safe.setItab s _).trans ((Safe.ejectRequest _).trans (ih _))

theorem Safe.reachBlind (p : Pos) : Safe s (Machine.reachBlind p s) := by
  rw [reachBlind_eq]
  exact (Safe.setItab s _).trans (.blindRequests _ _)

theorem Safe.reachEject (p : Pos) : Safe s (Machine.reachEject p s) := by
  unfold Machine.reachEject
  split
  · exact .refl s
  · exact .ite (.retireItem _ s) (.refl s)

theorem Safe.doWork (p : Pos) (w : CountWork) : Safe s (Machine.doWork p w s) := by
  cases w with
  | forcedEnd => exact .reachForcedEnd s p
  | blind => exact .reachBlind s p
  | eject => exact .reachEject s p
  | channel n => exact .of_calm (fun ok => ok.reachChannel n p) (reachChannel_calm n p s)

theorem Safe.countEvent (forward : Bool) : Safe s (Machine.countEvent forward s) := by
  cases forward with
  | false =>
    rw [countEvent_false]
    exact (Safe.setPosu s _).trans (.setItab _ _)
  | true =>
    rw [countEvent_true]
    exact (Safe.setPosu s _).trans (.forEachFree (fun w _ u => .doWork u _ w) _)

/-! ## Sources (R9 to R16) -/

theorem Safe.completeSwitch (target : Source) (forward : Bool) : Safe s (Machine.completeSwitch target forward s) :=
  (Safe.endSwitch s _).trans ((Safe.setPosu _ _).trans (.countEvent _ forward))

theorem Safe.qualifyCount (p : PendingSwitch) (forward : Bool) : Safe s (Machine.qualifyCount p forward s) := by
  unfold Machine.qualifyCount
  exact .ite (.completeSwitch s _ _) (.setPosu s _)

theorem Safe.sourceCount (src : Source) (forward : Bool) : Safe s (Machine.sourceCount src forward s) := by
  unfold Machine.sourceCount
  refine .ite ((Safe.setPosu s _).trans (.countEvent _ forward)) ?_
  split
  · exact .refl s
  · exact .ite (.qualifyCount s _ _) (.refl s)

theorem Safe.failover (cause : FailCause) (m : Monitor) : Safe s (Machine.failover cause m s) :=
  (Safe.setPosu s _).trans ((Safe.endSwitch _ _).trans ((Safe.setPosu _ _).trans (.setBoth _ _)))

theorem Safe.quadFault : Safe s (Machine.quadFault s) := by
  unfold Machine.quadFault
  refine .ite ?_ ?_
  · split
    · exact .refl s
    · exact .ite (.failover s _ _) (.setPosu s _)
  · split
    · exact .refl s
    · exact .ite (.setPosu s _) (.refl s)

theorem Safe.takeQuadEdge (a b : Bool) : Safe s (Machine.takeQuadEdge a b s) := by
  have pins : Safe s { s with pins := { s.pins with encA := a, encB := b } } := .setPins s _
  unfold Machine.takeQuadEdge
  dsimp only
  refine .ite pins ?_
  split
  · exact pins
  · exact pins.trans (.sourceCount _ _ _)
  · exact pins.trans (.quadFault _)

theorem Safe.takeStepEdge (dirHigh : Bool) : Safe s (Machine.takeStepEdge dirHigh s) := by
  unfold Machine.takeStepEdge
  exact .ite (.refl s) (.sourceCount s _ _)

theorem Safe.takeGeneratorCount : Safe s (Machine.takeGeneratorCount s) := by
  unfold Machine.takeGeneratorCount
  refine .ite (.refl s) ?_
  split
  · exact .refl s
  · exact (Safe.ite (.refl s) (.elapse s _)).trans ((Safe.setPosu _ _).trans (.sourceCount _ _ _))

theorem Safe.takeSwitchDeadline : Safe s (Machine.takeSwitchDeadline s) := by
  unfold Machine.takeSwitchDeadline
  split
  · exact .refl s
  · exact .ite (.refl s) ((Safe.reachTime s _).trans (.endSwitch _ _))

theorem Safe.takeSilenceExpiry : Safe s (Machine.takeSilenceExpiry s) := by
  unfold Machine.takeSilenceExpiry
  split
  · exact .refl s
  · exact .ite (.refl s) ((Safe.reachTime s _).trans (.failover _ _ _))

theorem Safe.takeIntervalEnd : Safe s (Machine.takeIntervalEnd s) := by
  unfold Machine.takeIntervalEnd
  exact .ite (.refl s) ((Safe.reachTime s _).trans (.setPosu _ _))

/-! ## Pulses (R63, R72) -/

theorem Safe.takeEjectEnd : Safe s (Machine.takeEjectEnd s) := by
  unfold Machine.takeEjectEnd
  split
  · exact .refl s
  · exact .ite (.refl s) ((Safe.reachTime s _).trans (.setEject _ _))

theorem Safe.takeTriggerEnd (n : Unit8) : Safe s (Machine.takeTriggerEnd n s) := by
  unfold Machine.takeTriggerEnd
  split
  · exact .refl s
  · exact .ite (.refl s) ((Safe.reachTime s _).trans (.modChan _ fun _ _ _ => by rfl))

theorem Safe.takeStrobeDelayEnd (n : Unit8) : Safe s (Machine.takeStrobeDelayEnd n s) := by
  unfold Machine.takeStrobeDelayEnd
  split
  · exact .ite (.refl s) ((Safe.reachTime s _).trans (.modChan _ fun _ _ _ => by rfl))
  · exact .refl s
  · exact .refl s

theorem Safe.takeStrobeEnd (n : Unit8) : Safe s (Machine.takeStrobeEnd n s) := by
  unfold Machine.takeStrobeEnd
  split
  · exact .ite (.refl s) ((Safe.reachTime s _).trans (.modChan _ fun _ _ _ => by rfl))
  · exact .refl s
  · exact .refl s

/-! ## Cameras (R82 to R90) -/

theorem Safe.takeFs (n : Unit8) (k : BitVec 16) : Safe s (Machine.takeFs n k s) :=
  .of_calm (fun ok => ok.takeFs n k) (takeFs_calm n k s)

theorem Safe.takeLn (n : Unit8) (l : List (BitVec 14)) : Safe s (Machine.takeLn n l s) :=
  .of_calm (fun ok => ok.takeLn n l) (takeLn_calm n l s)

theorem Safe.takeFe (n : Unit8) : Safe s (Machine.takeFe n s) := .of_calm (fun ok => ok.takeFe n) (takeFe_calm n s)

theorem Safe.takeWindowExpiry (n : Unit8) : Safe s (Machine.takeWindowExpiry n s) := by
  refine ⟨fun ok => ok.takeWindowExpiry n, ?_⟩
  unfold Machine.takeWindowExpiry
  split
  · rfl
  · split
    · exact (settleAs_calm n _ _).sends.trans ((modPort_calm n _ _).sends.trans
        ((expireRecord_calm n _ _).sends.trans (Safe.reachTime s _).sends))
    · rfl

theorem Safe.takeLockGained (n : Unit8) : Safe s (Machine.takeLockGained n s) := by
  refine ⟨fun ok => ok.takeLockGained n, ?_⟩
  unfold Machine.takeLockGained
  dsimp only
  split
  · rfl
  · split
    · exact (settleAs_calm n _ _).sends.trans (modPort_calm n _ _).sends
    · rfl

theorem Safe.takeLockLost (n : Unit8) : Safe s (Machine.takeLockLost n s) := by
  refine ⟨fun ok => ok.takeLockLost n, ?_⟩
  have lost : (loseLock n (setLock n false s)).sends = s.sends := (loseLock_calm n _).sends
  unfold Machine.takeLockLost
  dsimp only
  split
  · rfl
  · cases (s.port n).state with
    | disabled | unlocked => rfl
    | idle | armed | receiving | draining => exact lost

end

end Sys2Proof.Machine
end

section
/-! PROOFS. The link and the asks of the arbiter, in the ledger: a segment going out is its lane's (O59). -/

namespace Sys2Proof.Machine

/-- The ledger is kept, every unit fits, and a segment going out is its lane's. -/
structure Right (s : State) : Prop where
  good : Good s
  tx : TxOk s

section
variable {s t : State}

theorem ledger_lanes (same : t.sends = s.sends) : t.ledger.lane = s.ledger.lane := by
  simp only [State.sends, Prod.mk.injEq] at same
  obtain ⟨-, full, preview⟩ := same
  funext p
  cases p with
  | full => exact congrArg (Option.map fun t : Transfer => (t.handle, t.abandoning)) full
  | preview => exact congrArg (Option.map fun t : Transfer => (t.handle, t.abandoning)) preview

theorem Safe.right (safe : Safe s t) (right : Right s) : Right t := by
  obtain ⟨good, tx⟩ := right
  refine ⟨safe.good good, fun g out => ?_⟩
  have same : t.lnk.tx = s.lnk.tx := congrArg Prod.fst safe.sends
  rw [ledger_lanes safe.sends]
  exact tx g (same.symm.trans out)

/-- Where no segment goes out, nothing is said of one. -/
theorem Good.right (ok : Good s) (other : ∀ g, s.lnk.tx ≠ .image g) : Right s := ⟨ok, fun g out => absurd out (other g)⟩

/-! ## LINK, and the leaving of UP (R160 to R163, R183) -/

theorem modLnk_same (f : Lnk → Lnk) (s : State) : Same s (modLnk f s) := ⟨rfl, rfl⟩

theorem Safe.modLnk {f : Lnk → Lnk} (tx : ∀ l, (f l).tx = l.tx) (s : State) : Safe s (Machine.modLnk f s) :=
  .of_same (modLnk_same f s) (congrArg (fun x => (x, s.fwd.fullLane, s.fwd.previewLane)) (tx s.lnk))

theorem Safe.countLnk (f : LinkCounters → LinkCounters) (s : State) : Safe s (Machine.countLnk f s) := .modLnk (fun _ => by rfl) s

theorem Safe.stopFramer (s : State) : Safe s (Machine.stopFramer s) := .modLnk (fun _ => by rfl) s

theorem Safe.startHold (s : State) : Safe s (Machine.startHold s) := .modLnk (fun _ => by rfl) s

theorem Safe.dropHunting (s : State) : Safe s (Machine.dropHunting s) := .modLnk (fun _ => by rfl) s

theorem Safe.alignIfLit (s : State) : Safe s (Machine.alignIfLit s) := by
  unfold Machine.alignIfLit
  exact .ite ((Safe.stopFramer s).trans (.modLnk (fun _ => by rfl) _)) (.refl s)

theorem fill_other (l : Lnk) (g : Segment) : fill l ≠ .image g := by
  unfold fill
  split <;> exact fun e => nomatch e

theorem Good.fills (ok : Good s) {f : Lnk → Lnk} (tx : ∀ l, (f l).tx = fill l) : Right (modLnk f s) :=
  ((modLnk_same f s).good ok).right fun g out => fill_other s.lnk g ((tx s.lnk).symm.trans out)

theorem Good.startFill (ok : Good s) : Right (startFill s) := ok.fills fun _ => rfl

theorem Good.leaveUp (ok : Good s) (cause : DownCause) (cutting : Bool) : Right (leaveUp cause cutting s) := by
  unfold Machine.leaveUp
  extract_lets s1 s2
  have stopped : Good s1 := (modLnk_same _ _).good ((modLnk_same _ s).good ok)
  have lost : Good s2 := (Safe.setLine _ _).good stopped.forwardLoss
  clear_value s2
  exact ((Safe.ite (.startHold s2) (.alignIfLit s2)).good lost).startFill

/-! ## Frames that end (R155, R156, R173) -/

/-- What an ask hands over goes out. -/
theorem Good.nextFrame (ok : Good s) : Right (nextFrame s) := by
  have hands := ok.arbiter
  unfold Machine.nextFrame
  split
  · split <;> rename_i answer <;> rw [answer] at hands <;> obtain ⟨after, lane⟩ := hands
    · exact ⟨(modLnk_same _ _).good after, fun g out => lane g (congrArg some out)⟩
    · exact after.fills fun _ => rfl
  · exact ok.fills fun _ => rfl

theorem Good.beginRetrain (ok : Good s) : Right (beginRetrain s) := by
  unfold Machine.beginRetrain
  split
  · exact ok.leaveUp _ _
  · exact ok.nextFrame

/-- FWD learns of each frame that has gone out before it is asked for the next (R177). -/
theorem Right.frameEnded (right : Right s) : Right (frameEnded s) := by
  obtain ⟨good, tx⟩ := id right
  unfold Machine.frameEnded
  split
  · exact right
  · exact right
  · exact Good.nextFrame ((modLnk_same _ s).good good)
  · have sent := fun f => (modLnk_same f s).good good
    dsimp only
    split
    · exact (sent _).beginRetrain
    · exact (sent _).nextFrame
  · rename_i g out
    obtain ⟨b, lane, abandoned⟩ := tx g out
    exact (Good.segmentReport ((modLnk_same _ s).good good) lane abandoned).nextFrame

/-! ## Events of the link -/

/-- Whatever O59 says of `s` holds of `t`. -/
def Keeps (s t : State) : Prop := Right s → Right t

theorem Keeps.refl (s : State) : Keeps s s := id

theorem Safe.keeps (safe : Safe s t) : Keeps s t := safe.right

theorem Keeps.trans {a b c : State} (h : Keeps a b) (k : Keeps b c) : Keeps a c := fun right => k (h right)

theorem Keeps.ite {c : Prop} [Decidable c] {s x y : State} (hx : Keeps s x) (hy : Keeps s y) : Keeps s (if c then x else y) := by
  split
  · exact hx
  · exact hy

/-- The ledger and the units are kept, and with them what is going out. -/
theorem Keeps.of_good (step : Good s → Right t) : Keeps s t := fun right => step right.good

section
variable (s : State)

theorem keeps_leaveUp (cause : DownCause) (cutting : Bool) : Keeps s (leaveUp cause cutting s) := .of_good fun ok => ok.leaveUp _ _

theorem Safe.enterUp : Safe s (Machine.enterUp s) :=
  (Safe.modLnk (fun _ => by rfl) s).trans ((Safe.setLine _ _).trans (.queueMessage _ _ _))

theorem Safe.countCorrect : Safe s (Machine.countCorrect s) := by
  unfold Machine.countCorrect
  split
  · exact .refl s
  · exact .ite ((Safe.modLnk (fun _ => by rfl) s).trans (.enterUp _)) (.modLnk (fun _ => by rfl) s)
  · exact .modLnk (fun _ => by rfl) s

theorem Safe.correctDelimiter (d : Delimiter) : Safe s (Machine.correctDelimiter d s) := by
  have counted : Safe s (Machine.countCorrect (Machine.modLnk (fun l => { l with framer := .framed }) s)) :=
    (Safe.modLnk (fun _ => by rfl) s).trans (.countCorrect _)
  cases d with
  | idle => exact counted.trans (.modLnk (f := fun l => { l with reception := some .idle }) (fun _ => rfl) _)
  | control => exact counted.trans (.modLnk (f := fun l => { l with reception := some .header }) (fun _ => rfl) _)
  | image => exact counted.trans ((Safe.countLnk _ _).trans (.dropHunting _))

theorem keeps_delimiterError : Keeps s (delimiterError s) := by
  unfold delimiterError
  extract_lets s1 s2
  have counted : Safe s s1 := (Safe.dropHunting s).trans (.countLnk _ _)
  have run : Safe s s2 := counted.trans (.modLnk (fun _ => by rfl) s1)
  exact .ite (.ite (run.keeps.trans (keeps_leaveUp _ _ _)) run.keeps) counted.keeps

theorem keeps_takeDelimiter (d : Option Delimiter) : Keeps s (takeDelimiter d s) := by
  unfold takeDelimiter
  refine .ite ?_ (.refl s)
  cases d with
  | none => exact keeps_delimiterError s
  | some d => exact (Safe.correctDelimiter s d).keeps

theorem keeps_takeHuntDelimiter (d : Delimiter) : Keeps s (takeHuntDelimiter d s) :=
  .ite (Safe.correctDelimiter s d).keeps (.refl s)

theorem keeps_takeHuntSpan : Keeps s (takeHuntSpan s) := .ite (keeps_delimiterError s) (.refl s)

theorem Safe.takeControlHeader (length : Byte) : Safe s (Machine.takeControlHeader length s) :=
  .ite (.ite ((Safe.countLnk _ s).trans (.dropHunting _)) (.modLnk (fun _ => by rfl) s)) (.refl s)

theorem Safe.takeLightGained : Safe s (Machine.takeLightGained s) := by
  have lit : Safe s { s with pins := { s.pins with light := true } } := .setPins s _
  exact .ite lit (lit.trans (.alignIfLit _))

theorem keeps_takeLightLost : Keeps s (takeLightLost s) := by
  have dark : Safe s { s with pins := { s.pins with light := false } } := .setPins s _
  unfold takeLightLost
  refine .ite dark.keeps ?_
  cases s.lnk.state with
  | down => exact dark.keeps
  | aligning => exact (dark.trans ((Safe.stopFramer _).trans (.modLnk (fun _ => by rfl) _))).keeps
  | up => exact dark.keeps.trans (keeps_leaveUp _ _ _)

theorem keeps_retrainNow : Keeps s (retrainNow s) := by
  have held (u : State) : Keeps u (startFill (Machine.startHold u)) := .of_good fun ok => ((Safe.startHold u).good ok).startFill
  unfold retrainNow
  cases s.lnk.state with
  | up => exact keeps_leaveUp s _ _
  | aligning => exact ((Safe.stopFramer s).trans (.modLnk (fun _ => by rfl) _)).keeps.trans (held _)
  | down => exact held s

theorem keeps_takeHoldEnd : Keeps s (takeHoldEnd s) := by
  unfold takeHoldEnd
  split
  · exact .refl s
  · refine .ite (.refl s) (.of_good fun ok => Good.startFill ?_)
    exact ((Safe.reachTime s _).trans ((Safe.modLnk (fun _ => by rfl) _).trans (.alignIfLit _))).good ok

theorem keeps_takeFrameEnd : Keeps s (takeFrameEnd s) := by
  unfold takeFrameEnd
  refine .ite (.refl s) fun right => Right.frameEnded ?_
  exact ((Safe.ite (.refl s) (.elapse s _)).trans (.modLnk (fun _ => by rfl) _)).right right

/-! ## Resets (R193) -/

theorem Good.of_fresh {t : State} (imagery : t.imagery = State.reset.imagery) (front : t.front = State.reset.front) : Good t :=
  (Same.of imagery front).good (good_of_statement catalogueOk_reset queuesOk_reset).1

theorem right_deviceReset (hold : ResetHold) : Right (deviceReset hold s) :=
  (Good.of_fresh (t := deviceReset hold s) rfl rfl).right fun _ out => nomatch out

theorem keeps_takeResetEnd (c : ResetCause) : Keeps s (takeResetEnd c s) := by
  have lifted (u : State) : Right (bootUp u) := by
    have straps (p : Posu) (k : Capu) : Safe (deviceReset {} u) (((deviceReset {} u).setPosu p).setCapu k) :=
      (Safe.setPosu _ _).trans (.setCapu _ _)
    exact (((straps _ _).trans (.alignIfLit _)).good (right_deviceReset u {}).good).startFill
  have freed : Safe s { s with hold := s.hold.without c } := .plain rfl rfl rfl
  unfold takeResetEnd
  exact .ite (.ite freed.keeps fun _ => lifted _) (.refl s)

end

end

end Sys2Proof.Machine
end

section
/-! PROOFS. Requests, in the ledger and the posts (O59). -/

namespace Sys2Proof.Machine

/-! ## Handlers -/

/-- A block's rule keeps what O59 says, whoever asks and with whatever arguments. -/
def KeepsBooks (run : Handler) : Prop := ∀ m args s, Keeps s (run m args s).1

/-- Each side of a decision keeps it. -/
theorem keeps_ite {c : Prop} [Decidable c] {s : State} {x y : State × Answer} (hx : Keeps s x.1) (hy : Keeps s y.1) :
    Keeps s (if c then x else y).1 := by
  split
  · exact hx
  · exact hy

theorem readAs_keepsBooks (f : State → List Byte) : KeepsBooks (readAs f) := fun _ _ s => .refl s

theorem readUnit_keepsBooks (f : Unit8 → State → List Byte) : KeepsBooks (readUnit f) := fun _ args s => by
  unfold readUnit
  split <;> exact .refl s

theorem onUnit_keepsBooks {f : Unit8 → List Byte → State → State × Answer} (h : ∀ n args s, Keeps s (f n args s).1) :
    KeepsBooks (onUnit f) := fun _ args s => by
  unfold onUnit
  split
  · exact .refl s
  · exact h _ args s

theorem onItem_keepsBooks {f : Item → Master → List Byte → State → State × Answer}
    (h : ∀ it m args s, Keeps s (f it m args s).1) : KeepsBooks (onItem f) := fun m args s => by
  unfold onItem
  split
  · exact .refl s
  · exact h _ m args s

/-- A rule for a frame is asked with the frame's record. -/
theorem onFrame_keepsBooks {f : Handle → FrameRecord → Master → State → State × Answer}
    (h : ∀ k r m s, recordAt s k = some r → Keeps s (f k r m s).1) : KeepsBooks (onFrame f) := fun m args s => by
  unfold onFrame
  split
  · exact .refl s
  · rename_i r rec
    exact h _ r m s rec

/-! ## Positions, captures and items -/

theorem setItab_keeps (s : State) (t : Itab) (a : Answer) : Keeps s (s.setItab t, a).1 := (Safe.setItab s t).keeps

theorem modItem_keeps (n : Nat) (f : Item → Item) (s : State) (a : Answer) : Keeps s (modItem n f s, a).1 := (Safe.modItem s n f).keeps

theorem runSetPositionConfig_keepsBooks : KeepsBooks runSetPositionConfig := fun _ args s => by
  unfold runSetPositionConfig setPositionConfig
  dsimp only
  split
  · split
    · exact keeps_ite (.refl s) (Safe.setPosu s _).keeps
    · exact .refl s
  · exact .refl s

theorem runSelectSource_keepsBooks : KeepsBooks runSelectSource := fun _ args s => by
  unfold runSelectSource
  split
  · exact .refl s
  · exact keeps_ite (keeps_ite (.refl s) (Safe.endSwitch s _).keeps) ((Safe.endSwitch s .superseded).trans (.setPosu _ _)).keeps

theorem runAbortSwitch_keepsBooks : KeepsBooks runAbortSwitch := fun _ _ s => keeps_ite (.refl s) (Safe.endSwitch s _).keeps

theorem runSetSpeed_keepsBooks : KeepsBooks runSetSpeed := fun _ _ s => keeps_ite (Safe.setPosu s _).keeps (Safe.setPosu s _).keeps

theorem runSetInput_keepsBooks : KeepsBooks runSetInput := fun _ args s => by
  unfold runSetInput
  split
  · refine keeps_ite (.refl s) (keeps_ite (.refl s) ?_)
    exact ((Safe.modInput s _ _).trans (.ite (.setItab _ _) (.refl _))).keeps
  · exact .refl s

theorem runReadCapture_keepsBooks : KeepsBooks runReadCapture := fun _ _ s => by
  unfold runReadCapture
  dsimp only
  split <;> exact (Safe.setCapu s _).keeps

theorem runReadItem_keepsBooks : KeepsBooks runReadItem := onItem_keepsBooks fun _ _ _ s => .refl s

theorem runTagItem_keepsBooks : KeepsBooks runTagItem := onItem_keepsBooks fun _ _ _ s => modItem_keeps _ _ s _

theorem runWithdrawItem_keepsBooks : KeepsBooks runWithdrawItem := onItem_keepsBooks fun it _ _ s => (Safe.withdraw it s).keeps

theorem runVerdict_keepsBooks : KeepsBooks runVerdict := fun _ args s => by
  unfold runVerdict
  split
  · exact .refl s
  · split
    · exact Keeps.ite (Safe.setItab s _).keeps (.refl s)
    · exact keeps_ite (setItab_keeps s _ _) (modItem_keeps _ _ s _)

theorem runOverride_keepsBooks : KeepsBooks runOverride := fun m args s => by
  unfold runOverride
  split
  · exact .refl s
  · exact onItem_keepsBooks (fun _ _ _ s => keeps_ite (.refl s) (modItem_keeps _ _ s _)) m args s

theorem runSetItemGeometry_keepsBooks : KeepsBooks runSetItemGeometry := fun _ args s => by
  unfold runSetItemGeometry
  dsimp only
  refine keeps_ite (.refl s) ?_
  split
  · exact keeps_ite (setItab_keeps s _ _) (.refl s)
  · exact .refl s

theorem Safe.createDeclared (it : Item) (s : State) : Safe s (Machine.createDeclared it s) :=
  (Safe.appendItem it s).trans (.completeIfSettled it.number _)

theorem runDeclareItem_keepsBooks : KeepsBooks runDeclareItem := fun _ args s => by
  unfold runDeclareItem
  extract_lets start length tag it
  cases declareRefusal s start length with
  | some r => exact .refl s
  | none =>
    dsimp only
    exact (Safe.createDeclared it s).keeps

/-! ## Channels -/

/-- A channel changed where its post shows nothing, with an answer. -/
theorem modChan_keeps {n : Unit8} {f : Channel → Channel} (same : ∀ c p k, postOf (f c) p k = postOf c p k) (s : State) (a : Answer) :
    Keeps s (modChan n f s, a).1 := (Safe.modChan s same).keeps

/-- A channel set running (R51). -/
theorem plan_keeps {n : Unit8} {f : Channel → Channel} {plan : Plan} {aims : Post → Bool}
    (shown : ∀ c p k, postOf (f c) p k = { postOf c p k with chan := .running, plan := plan, aims := aims (postOf c p k) })
    (s : State) (a : Answer) : Keeps s (modChan n f s, a).1 := by
  refine (Safe.of_calm (fun ok => ?_) (modChan_calm n f s)).keeps
  exact ok.modChan (g := fun p => { p with chan := .running, plan := plan, aims := aims p }) shown
    ((ok.units n).chanBusy (x := .running) (by decide) _ _)

theorem runSetChannel_keepsBooks : KeepsBooks runSetChannel := onUnit_keepsBooks fun _ _ s =>
  keeps_ite (.refl s) (keeps_ite (.refl s) (modChan_keeps (fun _ _ _ => by rfl) s _))

theorem runSetPulse_keepsBooks : KeepsBooks runSetPulse := onUnit_keepsBooks fun _ args s => by
  dsimp only
  split
  · exact .refl s
  · exact keeps_ite (modChan_keeps (fun _ _ _ => by rfl) s _) (.refl s)

theorem runPlanItem_keepsBooks : KeepsBooks runPlanItem := onUnit_keepsBooks fun _ _ s =>
  keeps_ite (.refl s) (keeps_ite (.refl s) (plan_keeps (plan := .item) (aims := Post.aims) (fun _ _ _ => by rfl) s _))

theorem startFreePlan_keeps (n : Unit8) (pitch : Nat) (plan : Plan) (stopOn : Option (AuxInput × UntilAction)) (s : State) :
    Keeps s (startFreePlan n pitch plan stopOn s).1 :=
  keeps_ite (.refl s) (keeps_ite (.refl s) (plan_keeps (plan := plan) (aims := fun _ => true) (fun _ _ _ => by rfl) s _))

theorem runRunPitch_keepsBooks : KeepsBooks runRunPitch := onUnit_keepsBooks fun _ _ s =>
  keeps_ite (.refl s) (startFreePlan_keeps _ _ _ _ s)

theorem runRunUntil_keepsBooks : KeepsBooks runRunUntil := onUnit_keepsBooks fun _ args s => by
  split
  · exact keeps_ite (.refl s) (startFreePlan_keeps _ _ _ _ s)
  · exact .refl s

theorem runShootCount_keepsBooks : KeepsBooks runShootCount := onUnit_keepsBooks fun _ _ s =>
  keeps_ite (.refl s) (keeps_ite (.refl s) (keeps_ite (.refl s)
    (plan_keeps (plan := .count) (aims := fun _ => true) (fun _ _ _ => by rfl) s _)))

theorem Safe.hardHalt (n : Unit8) (s : State) : Safe s (Machine.hardHalt n s) := .of_calm (fun ok => ok.hardHalt n) (hardHalt_calm n s)

theorem runHaltSoft_keepsBooks : KeepsBooks runHaltSoft := fun _ _ s =>
  (Safe.forEachFree (fun n _ s => .of_calm (fun ok => ok.softHalt n) (softHalt_calm n s)) s).keeps

theorem runHaltHard_keepsBooks : KeepsBooks runHaltHard := fun _ _ s => (Safe.forEachFree (fun n _ s => .hardHalt n s) s).keeps

theorem runSetEject_keepsBooks : KeepsBooks runSetEject := fun _ _ s => keeps_ite (Safe.setEject s _).keeps (.refl s)

/-! ## Ports (R76, R78 to R81) -/

/-- A port at rest, with neither entries nor a window, may be of either kind (R78). -/
theorem Post.Fits.ofKind {p : Post} (fits : p.Fits) (rest : p.port = .disabled ∨ p.port = .idle) (kinds : p.kinds = [])
    (window : p.window = none) (kind : PortKind) : ({ p with kind := kind } : Post).Fits where
  current := fits.current
  timed := fits.timed
  context := fits.context
  idle := fits.idle
  area := fun _ => ⟨window, fun k mem => absurd (kinds ▸ mem) List.not_mem_nil⟩
  scan := fun _ => by
    have is {x : PortState} (other : x ≠ .disabled ∧ x ≠ .idle) : p.port ≠ x := fun e => by
      rw [e] at rest
      exact rest.elim other.1 other.2
    exact ⟨is (by decide), fun k mem => absurd (kinds ▸ mem) List.not_mem_nil, fun e => absurd e (is (by decide)),
      fun e => absurd e (is (by decide))⟩

theorem setKind_keeps {n : Unit8} {kind : PortKind} {f : Port → Port}
    (shown : ∀ c p k, postOf c (f p) k = { postOf c p k with kind := kind }) {s : State} (mayBeSet : settable n s = true)
    (a : Answer) : Keeps s (modPort n f s, a).1 := by
  rw [settable_iff] at mayBeSet
  obtain ⟨rest, queue, window⟩ := mayBeSet
  have kinds : (s.posts n).kinds = [] := congrArg (List.map fun e : ShotEntry => e.kind) queue
  have shut : (s.posts n).window = none := congrArg (Option.map fun w : Window => w.handle) window
  refine (Safe.of_calm (fun ok => ?_) (modPort_calm n f s)).keeps
  exact ok.repost rfl (modPort_posts (g := fun p => { p with kind := kind }) shown) rfl ((ok.units n).ofKind rest kinds shut kind)

theorem runSetPort_keepsBooks : KeepsBooks runSetPort := onUnit_keepsBooks fun n args s => by
  dsimp only
  split
  · exact .refl s
  · rename_i kind _
    refine keeps_ite (.refl s) ?_
    split
    · exact .refl s
    · rename_i mayBeSet
      rw [Bool.not_eq_true', Bool.not_eq_false] at mayBeSet
      exact setKind_keeps (kind := kind) (fun _ _ _ => by rfl) mayBeSet _

/-- A port without a frame goes to a state of rest. -/
theorem settleAs_keeps {n : Unit8} {x : PortState} (rest : x.atRest = true) {s : State}
    (vacant : Good s → (s.posts n).current = none) : Safe s (settleAs n x s) :=
  .of_calm (fun ok => ok.settleAs rest (vacant ok)) (settleAs_calm n x s)

/-- A port that is neither ARMED nor RECEIVING has no frame. -/
theorem Good.vacant {s : State} (ok : Good s) {n : Unit8} {x : PortState} (is : (s.port n).state = x)
    (other : x ≠ .armed ∧ x ≠ .receiving) : (s.posts n).current = none :=
  ((ok.units n).resting (fun e => other.1 (is.symm.trans e)) fun e => other.2 (is.symm.trans e)).1

theorem runEnablePort_keepsBooks : KeepsBooks runEnablePort := onUnit_keepsBooks fun n _ s => by
  split
  · exact .refl s
  · rename_i disabled
    rw [not_not] at disabled
    have rest : (if s.locked n then PortState.idle else .unlocked).atRest = true := by split <;> rfl
    exact (settleAs_keeps rest fun ok => ok.vacant disabled (by decide)).keeps

theorem runDisablePort_keepsBooks : KeepsBooks runDisablePort := onUnit_keepsBooks fun n _ s => by
  split
  · exact .refl s
  · rename_i idle
    rw [not_not] at idle
    exact (settleAs_keeps rfl fun ok => ok.vacant idle (by decide)).keeps

/-- After a hard halt the port has no frame: its channel is IDLE (R69, R51). -/
theorem Good.hardHalt_vacant {s : State} (ok : Good s) (n : Unit8) : ((Machine.hardHalt n s).posts n).current = none := by
  have idle : ((Machine.hardHalt n s).posts n).chan = .idle := by
    change ((Machine.hardHalt n s).chan n).state = .idle
    rw [hardHalt_chan_eq, if_pos rfl, hardHalted]
    split
    · assumption
    · rfl
  obtain ⟨-, -, -, -, none⟩ := ((ok.hardHalt n).units n).idle idle
  exact none

theorem resetPort_safe (n : Unit8) (s : State) : Safe s (resetPort n s) := by
  refine .of_calm (fun ok => ?_) (resetPort_calm n s)
  have rest : (restState (s.port n).state (s.locked n)).atRest = true := by
    unfold restState
    split
    · rfl
    · split <;> rfl
  have counted : Same (Machine.hardHalt n s) (modPort n (fun p => { p with counters := {}, lastCounter := none })
      (modChan n (fun c => { c with fired := 0, skipped := 0, untilMark := none }) (Machine.hardHalt n s))) :=
    (modChan_same fun _ _ _ => by rfl).trans (modPort_same fun _ _ _ => by rfl)
  refine (counted.good (ok.hardHalt n)).settleAs rest ?_
  rw [counted.posts]
  exact ok.hardHalt_vacant n

theorem runResetPort_keepsBooks : KeepsBooks runResetPort := onUnit_keepsBooks fun n _ s => (resetPort_safe n s).keeps

/-- The packer's context stays. -/
theorem setPacker_keeps {n : Unit8} {k : Packer} {s : State} (same : k.context = (s.packer n).context) (a : Answer) :
    Keeps s (s.setPacker n k, a).1 :=
  (Safe.of_same (setPacker_same (congrArg (Option.map (·.handle)) same)) rfl).keeps

theorem runSetConversion_keepsBooks : KeepsBooks runSetConversion := onUnit_keepsBooks fun _ args s => by
  split
  · exact keeps_ite (.refl s) (keeps_ite (.refl s) (setPacker_keeps (by rfl) _))
  · exact .refl s

theorem runSetPreview_keepsBooks : KeepsBooks runSetPreview := onUnit_keepsBooks fun _ args s => by
  dsimp only
  split
  · exact .refl s
  · exact keeps_ite (setPacker_keeps (by rfl) _) (.refl s)

/-! ## The store (R128 to R132) -/

/-- A record changed where its entry shows nothing. -/
theorem modRecord_keeps {h : Handle} {f : FrameRecord → FrameRecord} (same : ∀ r, (f r).entry = r.entry) (s : State) (a : Answer) :
    Keeps s (modRecord h f s, a).1 := (Safe.of_calm (modRecord_same same h s).good (modRecord_calm h f s)).keeps

theorem runReadFrame_keepsBooks : KeepsBooks runReadFrame := onFrame_keepsBooks fun _ _ _ s _ => .refl s

theorem runHold_keepsBooks : KeepsBooks runHold := onFrame_keepsBooks fun _ _ _ s _ =>
  keeps_ite (.refl s) (modRecord_keeps (fun _ => by rfl) s _)

theorem runRelease_keepsBooks : KeepsBooks runRelease := onFrame_keepsBooks fun _ _ _ s _ =>
  keeps_ite (modRecord_keeps (fun _ => by rfl) s _) (.refl s)

theorem Safe.freeRecord {s : State} {h : Handle} {r : FrameRecord} (rec : recordAt s h = some r) (ended : r.state.finished = true)
    (idle : r.anySending = false) : Safe s (Machine.freeRecord h s) := .of_calm (fun ok => ok.free rec ended idle) (freeRecord_calm h s)

theorem runDiscard_keepsBooks : KeepsBooks runDiscard := onFrame_keepsBooks fun h r _ s rec => by
  split
  · exact .refl s
  · rename_i free
    simp only [Bool.or_eq_true, Bool.not_eq_true', not_or, Bool.not_eq_false, Bool.not_eq_true, and_assoc] at free
    obtain ⟨ended, idle, -⟩ := free
    exact keeps_ite (.refl s) (Safe.freeRecord rec ended idle).keeps

/-- Records that `s` has are freed one after another: none comes in (R131). -/
theorem freeAll_safe {s : State} {l : List Handle} (clear : ∀ h ∈ l, ∀ r, recordAt s h = some r → clearable r = true) {u : State}
    (left : ∀ h r, recordAt u h = some r → recordAt s h = some r) : Safe u (l.foldl (fun s h => freeRecord h s) u) := by
  induction l generalizing u with
  | nil => exact .refl u
  | cons h l ih =>
    have first : Safe u (freeRecord h u) := by
      cases rec : recordAt u h with
      | none =>
        rw [freeRecord_none rec]
        exact .refl u
      | some r =>
        have free := clear h List.mem_cons_self r (left h r rec)
        simp only [clearable, Bool.and_eq_true, Bool.not_eq_true', and_assoc] at free
        obtain ⟨ended, idle, -⟩ := free
        exact .freeRecord rec ended idle
    refine first.trans (ih (fun k mem => clear k (List.mem_cons_of_mem h mem)) fun k r rec => ?_)
    rw [recordAt_freed] at rec
    split_ifs at rec
    exact left k r rec

theorem runClearStore_keepsBooks : KeepsBooks runClearStore := fun _ _ s => by
  refine Safe.keeps ((freeAll_safe (s := s) (fun h mem r rec => ?_) fun _ _ => id).trans (.setOffice _ _))
  have fits := (List.mem_filter.1 mem).2
  rwa [rec] at fits

theorem runSetLowWater_keepsBooks : KeepsBooks runSetLowWater := fun _ _ s =>
  keeps_ite (Safe.keeps (t := s.setFsto _) (.plain rfl rfl rfl)) (.refl s)

/-! ## The link, pulls and notices (R165, R178 to R182, R194) -/

theorem runRetrainLink_keepsBooks : KeepsBooks runRetrainLink := fun m _ s => by
  cases m with
  | line => exact keeps_retrainNow s
  | office => exact keeps_ite (.refl s) (Safe.modLnk (f := fun l => { l with retrainPending := true }) (fun _ => rfl) s).keeps

/-- FWD changed in neither its queues nor its lanes. -/
theorem Safe.modFwd {f : Fwd → Fwd} (shown : ∀ w, (f w).shown = w.shown)
    (lanes : ∀ w, ((f w).fullLane, (f w).previewLane) = (w.fullLane, w.previewLane)) (s : State) : Safe s (Machine.modFwd f s) :=
  .of_same (setFwd_same (shown s.fwd)) (congrArg (Prod.mk s.lnk.tx) (lanes s.fwd))

theorem modFwd_keeps {f : Fwd → Fwd} (shown : ∀ w, (f w).shown = w.shown)
    (lanes : ∀ w, ((f w).fullLane, (f w).previewLane) = (w.fullLane, w.previewLane)) (s : State) (a : Answer) :
    Keeps s (modFwd f s, a).1 := (Safe.modFwd shown lanes s).keeps

theorem runSetHoldRejected_keepsBooks : KeepsBooks runSetHoldRejected := fun _ args s => by
  unfold runSetHoldRejected
  split
  · exact .refl s
  · exact modFwd_keeps (fun _ => by rfl) (fun _ => by rfl) s _

theorem runCredit_keepsBooks : KeepsBooks runCredit := fun _ _ s =>
  keeps_ite (.refl s) (keeps_ite (modFwd_keeps (fun _ => by rfl) (fun _ => by rfl) s _)
    (modFwd_keeps (fun _ => by rfl) (fun _ => by rfl) s _))

theorem runSetAutoFull_keepsBooks : KeepsBooks runSetAutoFull := onUnit_keepsBooks fun _ args s => by
  split
  · exact .refl s
  · exact modFwd_keeps (fun _ => by rfl) (fun _ => by rfl) s _

theorem runPull_keepsBooks : KeepsBooks runPull := onFrame_keepsBooks fun h r _ s rec => by
  split
  · exact .refl s
  · rename_i out
    split
    · exact .refl s
    · rename_i room
      rw [not_le] at room
      split
      · rename_i ended
        have idle : r.fullState = .none ∨ r.fullState = .sent := by
          cases full : r.fullState <;> simp [full] at out <;> simp
        exact (Safe.of_calm (fun ok => ok.joinPull rec ended idle room) (joinPull_calm h s)).keeps
      · rename_i unended
        exact (Safe.of_calm (fun ok => ok.ask rec (Bool.eq_false_iff.2 unended) (.inr rfl) fun _ => room)
          (modRecord_calm h _ s)).keeps

theorem runCancelPull_keepsBooks : KeepsBooks runCancelPull := onFrame_keepsBooks fun h r _ s rec => by
  cases full : r.fullState with
  | none => exact .refl s
  | sent => exact .refl s
  | await =>
    refine (Safe.of_calm (fun ok => ok.ask rec ?_ (.inl rfl) (fun e => nomatch e)) (modRecord_calm h _ s)).keeps
    have parts := (partsOk_iff r).1 (ok.record rec).2.2.2.2
    cases ended : r.state.finished with
    | false => rfl
    | true =>
      rw [if_pos ended] at parts
      exact absurd full parts.1
  | queued => exact Safe.keeps ⟨fun ok => ok.cancelQueued rec full, (modRecord_calm h _ _).sends⟩
  | sending =>
    rintro ⟨good, tx⟩
    obtain ⟨kept, lanes⟩ := good.abandonPull rec full
    refine ⟨kept, fun g out => ?_⟩
    have same : (abandonPull h s).lnk.tx = s.lnk.tx := congrArg Prod.fst (modRecord_calm h _ _).sends
    obtain ⟨b, lane, abandoned⟩ := tx g (same.symm.trans out)
    obtain ⟨c, after, more⟩ := lanes _ _ b lane
    exact ⟨c, after, fun gone => more (abandoned gone)⟩

theorem runReadStatus_keepsBooks : KeepsBooks runReadStatus := fun m _ s => by
  cases m <;> exact (Safe.setRnu s _).keeps

theorem Safe.callOffice (before : Rnu) (s : State) : Safe s (Machine.callOffice before s) :=
  .of_calm (Same.of (by
    unfold Machine.callOffice
    split
    · exact offerNotice_imagery s
    · rfl) (by
    unfold Machine.callOffice
    split
    · exact offerNotice_front s
    · rfl)).good (callOffice_calm before s)

theorem runSetNoticeMask_keepsBooks : KeepsBooks runSetNoticeMask := fun m _ s => by
  cases m with
  | line => exact (Safe.setRnu s _).keeps
  | office => exact ((Safe.setRnu s _).trans (.callOffice _ _)).keeps

end Sys2Proof.Machine
end

section
/-! PROOFS. The two ways in, and every step: the catalogue, the queues, the lanes and the units (O59). -/

namespace Sys2Proof.Machine

/-! ## The two ways in -/

theorem serve_keeps {found : Option OpSpec} (run : ∀ o, found = some o → KeepsBooks o.run) (m : Master) (args : List Byte)
    (s : State) : Keeps s (serve found m args s).1 := by
  unfold serve
  split
  · exact .refl s
  · exact keeps_ite (.refl s) (keeps_ite (.refl s) (run _ rfl m args s))

theorem Safe.beginTransaction (bytes : List Byte) (s : State) : Safe s (Machine.beginTransaction bytes s) := by
  have low : Safe s { s with pins := { s.pins with csLow := true } } := .setPins s _
  exact .ite low (low.trans (.setRnu _ _))

theorem localRequest_keeps {found : Option OpSpec} (run : ∀ o, found = some o → KeepsBooks o.run) (args : List Byte) (s : State) :
    Keeps s (localRequest found args s) := by
  have high : Safe s { s with pins := { s.pins with csLow := false } } := .setPins s _
  refine .ite ?_ high.keeps
  exact (high.trans (.setRnu _ _)).keeps.trans ((serve_keeps run .line args _).trans (Safe.setRnu _ _).keeps)

theorem remoteRequest_keeps {found : Option OpSpec} (run : ∀ o, found = some o → KeepsBooks o.run) (tag : BitVec 16) (op : Byte)
    (args : List Byte) (s : State) : Keeps s (remoteRequest found tag op args s) := by
  have plain {f : Fwd → Fwd} (shown : ∀ w, (f w).shown = w.shown)
      (lanes : ∀ w, ((f w).fullLane, (f w).previewLane) = (w.fullLane, w.previewLane)) (u : State) : Safe u (modFwd f u) :=
    .modFwd shown lanes u
  unfold remoteRequest
  refine .ite ((plain ?_ ?_ s).trans (.setOffice _ _)).keeps
    ((plain ?_ ?_ s).keeps.trans ((serve_keeps run .office args _).trans (plain ?_ ?_ _).keeps)) <;> exact fun _ => by rfl

theorem receiveRequest_keeps {found : Option OpSpec} (run : ∀ o, found = some o → KeepsBooks o.run) (tag : BitVec 16) (op : Byte)
    (args : List Byte) (s : State) : Keeps s (receiveRequest found tag op args s) := by
  have taken : Safe s (modLnk (fun l => { l with reception := none }) s) := .modLnk (fun _ => by rfl) s
  refine .ite (.ite ?_ (taken.trans (.countLnk _ _)).keeps) (.refl s)
  exact (taken.trans (.countLnk _ _)).keeps.trans (remoteRequest_keeps run tag op args _)

theorem takeRequest_keeps {o : OpSpec} (run : KeepsBooks o.run) (v : Via) (args : List Byte) (s : State) :
    Keeps s (takeRequest o v args s) := by
  have found : ∀ p, some o = some p → KeepsBooks p.run := fun p e => Option.some.inj e ▸ run
  cases v with
  | fall => exact (Safe.beginTransaction _ s).keeps
  | line => exact localRequest_keeps found args s
  | office tag => exact receiveRequest_keeps found tag _ args s

/-! ## Every row, and every event -/

theorem runResetDevice_keepsBooks : KeepsBooks runResetDevice := fun _ _ s _ => right_deviceReset s _

/-- Every row of the command table keeps what O59 says. -/
theorem opTable_keepsBooks : ∀ o ∈ opTable, KeepsBooks o.run := by
  simp only [opTable, List.forall_mem_append, List.forall_mem_cons, List.not_mem_nil, false_implies, implies_true, and_true]
  refine ⟨⟨⟨⟨⟨?_, ?_⟩, ?_⟩, ?_⟩, ?_⟩, ?_⟩
  · exact ⟨fun _ _ s => .refl s, runReadStatus_keepsBooks, runSetNoticeMask_keepsBooks, runResetDevice_keepsBooks,
      readAs_keepsBooks _, readAs_keepsBooks _, runSetPositionConfig_keepsBooks, runSelectSource_keepsBooks,
      runAbortSwitch_keepsBooks, runSetSpeed_keepsBooks, readAs_keepsBooks _, runSetInput_keepsBooks, runReadCapture_keepsBooks⟩
  · exact ⟨runReadItem_keepsBooks, readAs_keepsBooks _, readAs_keepsBooks _, runSetItemGeometry_keepsBooks,
      runDeclareItem_keepsBooks, runTagItem_keepsBooks, runWithdrawItem_keepsBooks⟩
  · exact ⟨readUnit_keepsBooks _, runSetChannel_keepsBooks, runSetPulse_keepsBooks, runPlanItem_keepsBooks,
      runRunPitch_keepsBooks, runShootCount_keepsBooks, runRunUntil_keepsBooks, runHaltSoft_keepsBooks,
      runHaltHard_keepsBooks, readAs_keepsBooks _, runSetEject_keepsBooks⟩
  · exact ⟨readUnit_keepsBooks _, runSetPort_keepsBooks, runEnablePort_keepsBooks, runDisablePort_keepsBooks,
      runResetPort_keepsBooks, readUnit_keepsBooks _, runSetConversion_keepsBooks, runSetPreview_keepsBooks⟩
  · exact ⟨runReadFrame_keepsBooks, readAs_keepsBooks _, runHold_keepsBooks, runRelease_keepsBooks, runDiscard_keepsBooks,
      runClearStore_keepsBooks, runSetLowWater_keepsBooks, runVerdict_keepsBooks, runOverride_keepsBooks,
      runSetHoldRejected_keepsBooks, readAs_keepsBooks _⟩
  · exact ⟨readAs_keepsBooks _, runRetrainLink_keepsBooks, readAs_keepsBooks _, runCredit_keepsBooks, runPull_keepsBooks,
      runCancelPull_keepsBooks, runSetAutoFull_keepsBooks⟩

theorem Safe.takeIdleFrame (content : List Byte) (crc : BitVec 32) (s : State) : Safe s (Machine.takeIdleFrame content crc s) := by
  have taken : Safe s (Machine.modLnk (fun l => { l with reception := none }) s) := .modLnk (fun _ => by rfl) s
  unfold Machine.takeIdleFrame crcFailure takeFarState
  exact .ite (.modLnk (fun _ => by rfl) s) (taken.trans (.modLnk (fun _ => by rfl) _))

theorem takeControlFrame_keeps (content : List Byte) (crc : BitVec 32) (s : State) : Keeps s (takeControlFrame content crc s) := by
  have refused {f : Lnk → Lnk} (tx : ∀ l, (f l).tx = l.tx) : Keeps s (modLnk f s) := (Safe.modLnk tx s).keeps
  unfold takeControlFrame crcFailure wrongControlKind
  exact .ite (refused fun _ => by rfl) (.ite (refused fun _ => by rfl)
    (receiveRequest_keeps (fun o e => opTable_keepsBooks o (lookupOp_mem e)) _ _ _ s))

theorem takeFrame_keeps (content : List Byte) (crc : BitVec 32) (s : State) : Keeps s (takeFrame content crc s) := by
  unfold takeFrame
  refine .ite ?_ (.refl s)
  split
  · exact .refl s
  · exact .ite (Safe.takeIdleFrame content crc s).keeps (.refl s)
  · exact .ite (takeControlFrame_keeps content crc s) (.refl s)
  · exact .ite (takeControlFrame_keeps content crc s) (.refl s)

theorem event_keeps {i : Instr} (hi : rowOf i = none) (s : State) : LeadsTo (Keeps s) (exec i s) := by
  cases i with
  | quadEdge a b => exact leadsTo_next (Safe.takeQuadEdge s a b).keeps
  | stepEdge d => exact leadsTo_next (Safe.takeStepEdge s d).keeps
  | generatorCount => exact leadsTo_next (Safe.takeGeneratorCount s).keeps
  | switchDeadline => exact leadsTo_next (Safe.takeSwitchDeadline s).keeps
  | silenceExpiry => exact leadsTo_next (Safe.takeSilenceExpiry s).keeps
  | speedIntervalEnd => exact leadsTo_next (Safe.takeIntervalEnd s).keeps
  | capturePinChange i l => exact leadsTo_next (Safe.takePinChange s i l).keeps
  | filterExpiry i => exact leadsTo_next (Safe.takeFilterExpiry s i).keeps
  | ejectPulseEnd => exact leadsTo_next (Safe.takeEjectEnd s).keeps
  | triggerPulseEnd n => exact leadsTo_next (Safe.takeTriggerEnd s n).keeps
  | strobeDelayEnd n => exact leadsTo_next (Safe.takeStrobeDelayEnd s n).keeps
  | strobePulseEnd n => exact leadsTo_next (Safe.takeStrobeEnd s n).keeps
  | lockGained n => exact leadsTo_next (Safe.takeLockGained s n).keeps
  | lockLost n => exact leadsTo_next (Safe.takeLockLost s n).keeps
  | fsWord n c => exact leadsTo_next (Safe.takeFs s n c).keeps
  | lnWord n l => exact leadsTo_next (Safe.takeLn s n l).keeps
  | feWord n => exact leadsTo_next (Safe.takeFe s n).keeps
  | frameWindowExpiry n => exact leadsTo_next (Safe.takeWindowExpiry s n).keeps
  | lightGained => exact leadsTo_next (Safe.takeLightGained s).keeps
  | lightLost => exact leadsTo_next (keeps_takeLightLost s)
  | receivedDelimiter d => exact leadsTo_next (keeps_takeDelimiter s d)
  | huntDelimiterFound d => exact leadsTo_next (keeps_takeHuntDelimiter s d)
  | huntSpanExpiry => exact leadsTo_next (keeps_takeHuntSpan s)
  | controlHeaderReceived l => exact leadsTo_next (Safe.takeControlHeader s l).keeps
  | frameReceived c crc => exact leadsTo_next (takeFrame_keeps c crc s)
  | retrainHoldEnd => exact leadsTo_next (keeps_takeHoldEnd s)
  | transmitFrameEnd => exact leadsTo_next (keeps_takeFrameEnd s)
  | powerOn r => exact leadsTo_next fun _ => right_deviceReset s _
  | rstAsserted => exact leadsTo_next fun _ => right_deviceReset s _
  | resetEnd c => exact leadsTo_next (keeps_takeResetEnd s c)
  | unknownOperation op args =>
    exact leadsTo_next (localRequest_keeps (fun o e => opTable_keepsBooks o (lookupOp_mem e)) args s)
  | _ => simp [rowOf] at hi

theorem exec_keeps (i : Instr) {s t : State} (e : exec i s = .next t) : Keeps s t := by
  cases hi : rowOf i with
  | none => exact event_keeps hi s t e
  | some o =>
    obtain ⟨v, args, hr⟩ := request_of_rowOf hi
    rw [exec_request hi hr] at e
    exact leadsTo_next (takeRequest_keeps (opTable_keepsBooks o (rowOf_mem hi)) v args s) t e

/-- The queue of events and the free orders are no part of what O59 speaks of. -/
theorem Right.step {s t : State} (right : Right s) (e : step s = .next t) : Right t :=
  step_keeps (P := Right) (fun u l => Safe.right (s := u) (t := { u with pending := l }) (.plain rfl rfl rfl))
    (fun u k => Safe.right (s := u) (t := u.choseOrder k) (.plain rfl rfl rfl)) (fun u => (Safe.elapse u 1).right)
    (fun i _ _ right e => exec_keeps i e right) right e

/-- Settles O59: the store, the queues and the lanes are one ledger, in which each handle has its places as its record says; every
operation is a change of the ledger that keeps it, or of a unit's post that fits. -/
theorem stepsKeepTheCatalogue : Obligations.StepsKeepTheCatalogue := fun _ _ catalogue queues e => by
  obtain ⟨good, tx⟩ := good_of_statement catalogue queues
  obtain ⟨good', tx'⟩ := Right.step ⟨good, tx⟩ e
  exact good'.statement tx'

end Sys2Proof.Machine
end
